-- ==== Sys2Proof/Word.lean ====
section
/-! DEFINITION. The words, names and small value types that every layer of the JD442 model shares. -/

namespace Sys2Proof

/-- A byte of a frame, row or record. -/
abbrev Byte := BitVec 8
/-- A 48-bit station address. -/
abbrev Station := BitVec 48
/-- A 64-bit SCX identity. -/
abbrev Ident := BitVec 64

/-- The two paths of the part (00_scope, 'The two paths'). -/
inductive Path | a | b
deriving DecidableEq, Repr

/-- The four traffic ports (R23 table). -/
inductive Port | na | ea | nb | eb
deriving DecidableEq, Repr

/-- The path a port belongs to. -/
def Port.path : Port → Path
  | .na | .ea => .a
  | .nb | .eb => .b

/-- Whether a port is a network-side port. -/
def Port.isNet : Port → Bool
  | .na | .nb => true
  | .ea | .eb => false

/-- The network-side port of a path. -/
def Path.netPort : Path → Port
  | .a => .na
  | .b => .nb

/-- The other path. -/
def Path.other : Path → Path
  | .a => .b
  | .b => .a

/-- Port speed (R23). -/
inductive Speed | g10 | g25
deriving DecidableEq, Repr

/-- A timescale value: seconds, nanoseconds, sub-nanoseconds of 2^-16 ns (R1). -/
structure TimeValue where
  sec : Nat
  ns  : Nat
  sub : Nat
deriving DecidableEq, Repr

/-- One thing for each path. -/
structure PerPath (α : Type) where
  a : α
  b : α
deriving DecidableEq, Repr

/-- The thing of one path. -/
def PerPath.get {α : Type} (x : PerPath α) : Path → α
  | .a => x.a
  | .b => x.b

/-- Replace the thing of one path. -/
def PerPath.set {α : Type} (x : PerPath α) (p : Path) (v : α) : PerPath α :=
  match p with
  | .a => { x with a := v }
  | .b => { x with b := v }

/-- Change both. -/
def PerPath.map {α β : Type} (f : α → β) (x : PerPath α) : PerPath β := ⟨f x.a, f x.b⟩

/-- The direction of an input transition (R153). -/
inductive EdgeDir | rising | falling
deriving DecidableEq, Repr

/-- The three requesters of an egress arbiter (chapter 03). -/
inductive Requester | through | time | mgmt
deriving DecidableEq, Repr

/-- The three house items (R89). -/
inductive HouseItem | utcOffset | zoneOffset | jamTime
deriving DecidableEq, Repr

end Sys2Proof
end

