-- ==== Sys2Proof/Syntax.lean ====
section
/-! DEFINITION. The commands of the JD442: one constructor of `Instr` for each row of spec/opcode_table.json.

`dt` is the oscillator time, in units of 2^-16 ns, that passed since the event before (log 2, 31); deadlines and
edges name the row they act on (log 41). The management commands carry none: they run at the instant the control unit executes them (R170). Raw fields of rows have
the widths of R187, so that illegal values can be written and are refused by the owning rule. -/

namespace Sys2Proof

/-- The configured part a WRITE_ROW to CADENCE carries (R112, R187). -/
structure CadenceWrite where
  enabled   : Byte
  labelMode : Byte
  n         : BitVec 32
  d         : BitVec 16
  phi       : BitVec 32
deriving DecidableEq, Repr

/-- The configured part a WRITE_ROW to FLOW carries (R158, R187). -/
structure FlowWrite where
  enabled  : Byte
  pathSet  : Byte
  dirSet   : Byte
  stampPos : Byte
  group    : BitVec 32
  port     : BitVec 16
  silence  : BitVec 16
  rate     : BitVec 32
  offset   : BitVec 32
  lo       : BitVec 32
  hi       : BitVec 32
deriving DecidableEq, Repr

/-- The content a WRITE_ROW to RULES carries (R83, R187). -/
structure RuleWrite where
  inUse   : Byte
  pathSet : Byte
  action  : Byte
  rank    : Byte
  form    : Byte
  ident   : Ident
deriving DecidableEq, Repr

/-- The content a WRITE_ROW to MANAGERS carries (R174, R187). -/
structure ManagerWrite where
  inUse   : Byte
  station : Station
deriving DecidableEq, Repr

/-- The output form of a WRITE_ROW to LINES (R143, R187). -/
structure OutputWrite where
  mode     : Byte
  cadence  : Byte
  polarity : Byte
  divisor  : BitVec 16
  phase    : BitVec 16
  width    : BitVec 32
  mute     : Byte
  level    : Byte
deriving DecidableEq, Repr

/-- The input form of a WRITE_ROW to LINES (chapter 09, R187). -/
structure InputWrite where
  edge : Byte
  bind : Byte
deriving DecidableEq, Repr

/-- What a WRITE_ROW to LINES carries: the form named by its first byte, or a form byte of neither. -/
inductive LineWrite
  | output (w : OutputWrite)
  | input (w : InputWrite)
  | otherForm
deriving DecidableEq, Repr

/-- The commands: operations and events of the part, each whole and indivisible. -/
inductive Instr
  -- power and reset
  | powerOn
  | resetLineAssert
  | resetRelease (profile1 profile0 : Bool)
  -- links and frames
  | linkUp (dt : Nat) (port : Port) (speed : Speed)
  | linkDown (dt : Nat) (port : Port)
  | frameReceived (dt : Nat) (port : Port) (frame : List Byte)
  -- copies taken by their listeners
  | offerTaken (dt : Nat) (path : Path)
  | beaconTaken (dt : Nat) (path : Path)
  | detailTaken (dt : Nat) (path : Path)
  | replyTaken (dt : Nat) (path : Path)
  | mediaDatagramTaken (dt : Nat) (port : Port)
  | transmitEnd (dt : Nat) (port : Port)
  -- deadlines
  | probeDue (dt : Nat) (path : Path)
  | offerDeadline (dt : Nat) (row : Fin 16)
  | purge (dt : Nat) (row : Fin 16)
  | muteDeadline (dt : Nat) (row : Fin 16)
  | holdoverExpiry (dt : Nat)
  | residenceExpiry (dt : Nat) (row : Fin 32)
  | silenceTimerExpiry (dt : Nat) (row : Fin 64)
  | pulseEnd (dt : Nat) (line : Fin 8)
  | holdoffEnd (dt : Nat)
  | timescaleHold (dt : Nat)
  | generatorEdge (dt : Nat) (gen : Fin 16)
  | inputTransition (dt : Nat) (line : Fin 4) (edge : EdgeDir)
  -- the control unit
  | controlFrameTaken (dt : Nat) (commands : Nat)
  | readItem (item : BitVec 16)
  | writeItem (item : BitVec 16) (value : BitVec 64)
  | writeTrimLimit (value : BitVec 64)
  | writeLockIndicationMode (value : BitVec 64)
  | writeResidenceLifetime (value : BitVec 64)
  | writeLossLimit (value : BitVec 64)
  | writePreferredPath (value : BitVec 64)
  | writeRevertive (value : BitVec 64)
  | writeHouseItem (item : HouseItem) (value : BitVec 64)
  | writeArbiterClass (requester : Requester) (value : BitVec 64)
  | writeProbeIntervalExponent (value : BitVec 64)
  | writeDelayWindowLength (value : BitVec 64)
  | writeFlowMonitorEnable (value : BitVec 64)
  | setCursor (table : Byte) (row : BitVec 16)
  | readRows (count : Byte)
  | writeRow (content : List Byte)
  | writeRowCadence (content : CadenceWrite)
  | writeRowFlow (content : FlowWrite)
  | writeRowRules (content : RuleWrite)
  | writeRowManagers (content : ManagerWrite)
  | writeRowLines (content : LineWrite)
  | readEvents
  | clearEvents (flags : BitVec 32)
  | servoRestart
  | setTime (sec : BitVec 48) (ns : BitVec 32) (sub : BitVec 16)
  | realign (generators : BitVec 16)
  | jam (generators : BitVec 16)
  | lineSet (lines : BitVec 8)
  | lineClear (lines : BitVec 8)
  | captureRead (count : Byte)
  | flowReadClear (count : Byte)
  | softReset
  | ingressStartMarker (dt : Nat) (port : Port)
deriving DecidableEq, Repr

end Sys2Proof
end

