-- ==== Sys2Proof/Decode.lean ====
section
/-! DEFINITION. Decoding of words: the rows of spec/opcode_table.json give no bits ("fields": [] and no "fixed" in
every row), so no word spells a command (log 36). How the bytes of control frames are read is Machine/Operands.lean. -/

namespace Sys2Proof

/-- The command that a word spells by the table's bits: none, since no row gives bits. -/
def decodeTableWord (_nbits _w : Nat) : Option Instr := none

end Sys2Proof
end

