-- ==== Sys2Proof/Config.lean ====
section
/-! DEFINITION. What is fixed for every JD442: sizes, limits and units of the manual, and the free values
that the manual leaves open (constants without a body). -/

namespace Sys2Proof.Config

/-- Sub-nanosecond units (correction units, 2^-16 ns) in a nanosecond. -/
abbrev unitsPerNs : Nat := 65536
/-- Nanoseconds in a second. -/
abbrev nsPerSec : Nat := 1000000000
/-- Correction units in a second. -/
abbrev unitsPerSec : Nat := 65536000000000
/-- Correction units in a millisecond. -/
abbrev unitsPerMs : Nat := 65536000000
/-- Denominator of the trim: 1 tu is 10^-9 / 16 of the rate (R2). -/
abbrev trimDenom : Nat := 16000000000
/-- One more than the largest seconds value (R1). -/
abbrev secondsEnd : Nat := 281474976710656
/-- The largest timescale value, in correction units (R1). -/
abbrev maxUnits : Nat := secondsEnd * unitsPerSec - 1
/-- The largest value of a counter (00_scope, 'Counters'). -/
abbrev counterMax : Nat := 4294967295
/-- Segments of a through buffer, and bytes of a segment (chapter 03). -/
abbrev segments : Nat := 64
abbrev segmentBytes : Nat := 256
/-- Frames a through buffer holds at most (R41). -/
abbrev bufferFrames : Nat := 32
/-- Frames a MGMT queue holds at most (R45). -/
abbrev mgmtDepth : Nat := 8
/-- Least and greatest frame length (R28). -/
abbrev minFrame : Nat := 64
abbrev maxFrame : Nat := 9216
/-- Payload limit of a reply (R171). -/
abbrev replyLimit : Nat := 1500
/-- Commands of a frame that run (R170). -/
abbrev commandLimit : Nat := 32
/-- Records of the capture FIFO, and the limit of its overflow count (R155). -/
abbrev captureDepth : Nat := 32
abbrev overflowMax : Nat := 255
/-- The largest and one past the smallest edge index: signed 64 bits (R115, R118). -/
abbrev indexMax : Int := 9223372036854775807
abbrev indexMin : Int := -9223372036854775808
/-- Frame types (chapter 12). -/
abbrev scxType : Nat := 0x9C41
abbrev controlType : Nat := 0x9C42
abbrev ipv4Type : Nat := 0x0800

/-- DESIGN CHOICE, safe, log 17: the step sum after a change that leaves the signed 64-bit range, which R59 does
not state. The first argument counts free values, the second is the exact sum. -/
opaque stepSumBeyond : Nat → Int → BitVec 64

/-- DESIGN CHOICE, safe, log 18: what a field of that many bytes shows for a value that does not fit it, which
R183 and R187 do not state. -/
opaque fieldBeyond : Nat → Int → Nat

/-- DESIGN CHOICE, safe, log 19: which of several entries LOST equally long is replaced (R88 case 1). -/
opaque longestLostChoice : Nat → Nat

end Sys2Proof.Config
end

