-- ==== Sys2Proof/Machine/State.lean ====
section
/-! DEFINITION. The state of the JD442 as plain data, and its value right after reset. Every field names the
rule of spec/ that gives it; reset values not given by the spec name their log entry. -/

namespace Sys2Proof.Machine

/-- No command of the part ends in a fault: the manual names none (INVENTORY.md, Faults). -/
inductive Fault : Type
deriving DecidableEq, Repr

/-- The reasons a step may be refused. -/
inductive Refusal
  /-- Raised only by an arm of `exec` whose command has no meaning yet; safe. No arm raises it. -/
  | notModelled (mnemonic : String)
deriving DecidableEq, Repr

/-! ## Timescale and servo (chapter 01) -/

/-- Servo state, in the order of item 101. -/
inductive ServoState | freerun | acquire | locked | holdover
deriving DecidableEq, Repr

/-- The holdover timer: stopped, running or held, with its remaining time in correction units (R14). -/
inductive HoldoverTimer
  | stopped
  | running (left : Nat)
  | held (left : Nat)
deriving DecidableEq, Repr

/-- The servo counters, items 130 to 136 (R21). -/
structure ServoCounters where
  offsetsReceived  : Nat
  quietDiscards    : Nat
  stepsTaken       : Nat
  stepsRefused     : Nat
  outliers         : Nat
  outlierExits     : Nat
  holdoverExpiries : Nat
deriving DecidableEq, Repr

/-- The timescale and servo block (R1 to R22). -/
structure Servo where
  /-- Item 100 (R1). -/
  time             : TimeValue
  /-- Fraction of a sub-nanosecond carried between advances, in 1/(16 * 10^9) (R1, log 25). -/
  frac             : Nat
  state            : ServoState
  stage            : Nat
  trim             : Int
  acc              : Int
  hasLocked        : Bool
  lastOffset       : Int
  inWindow         : Nat
  outlierCount     : Nat
  quiet            : Nat
  startStage       : Nat
  finalStage       : Nat
  stepThreshold    : Nat
  stepGuard        : Bool
  outlierThreshold : Nat
  outlierLimit     : Nat
  trimLimit        : Nat
  quietCode        : Nat
  holdoverBudget   : Nat
  /-- Lock indication mode (item 119): true is LENIENT. -/
  lenient          : Bool
  timer            : HoldoverTimer
  count            : ServoCounters
deriving DecidableEq, Repr

def ServoCounters.reset : ServoCounters := ⟨0, 0, 0, 0, 0, 0, 0⟩

/-- R22 and the servo item table. -/
def Servo.reset : Servo where
  time := ⟨0, 0, 0⟩
  frac := 0
  state := .freerun
  stage := 0
  trim := 0
  acc := 0
  hasLocked := false
  lastOffset := 0
  inWindow := 0
  outlierCount := 0
  quiet := 0
  startStage := 0
  finalStage := 5
  stepThreshold := 100000
  stepGuard := true
  outlierThreshold := 10000
  outlierLimit := 4
  trimLimit := 1600000
  quietCode := 1
  holdoverBudget := 300
  lenient := false
  timer := .stopped
  count := .reset

/-! ## Ports and classifiers (chapter 02) -/

/-- What a port takes at a start marker: the trimmed timestamp in correction units, and the step sum of that
instant (R25, R26, R59). -/
structure Stamp where
  time    : Int
  stepSum : Int
deriving DecidableEq, Repr

/-- The frame on the wire of a port: which requester it was served from and the bytes that leave (R43, R49). -/
structure Sending where
  source : Requester
  bytes  : List Byte
deriving DecidableEq, Repr

/-- One traffic port (R23 to R28, R40). -/
structure PortState where
  up          : Bool
  speed       : Speed
  ingressTrim : Int
  egressTrim  : Int
  /-- The reception in progress (R25). -/
  receiving   : Option Stamp
  /-- The transmission in progress: what leaves the port (R43, R49, log 27). -/
  sending     : Option Sending
  received    : Nat
  transmitted : Nat
  checkDrops  : Nat
  oversize    : Nat
  cuts        : Nat
deriving DecidableEq, Repr

def PortState.reset : PortState where
  up := false
  speed := .g10
  ingressTrim := 0
  egressTrim := 0
  receiving := none
  sending := none
  received := 0
  transmitted := 0
  checkDrops := 0
  oversize := 0
  cuts := 0

/-- The kinds of a classified frame (R30). -/
inductive Kind
  | control | ownReply | listened | passingScx | media | through | refusedControl | foreignTime
deriving DecidableEq, Repr

/-- Path counters of the classifiers, items 230 to 234 (R40). -/
structure ClassifierCounters where
  scxMalformed   : Nat
  controlTaken   : Nat
  controlRefused : Nat
  foreignTime    : Nat
  foreignDrops   : Nat
deriving DecidableEq, Repr

/-- The classification items (R34, R35 and the item table of chapter 02). -/
structure Classifier where
  foreignBlock : Bool
  windowLow    : Nat
  windowHigh   : Nat
  opaqueLow    : Nat
  opaqueHigh   : Nat
  listenDomain : Nat
deriving DecidableEq, Repr

def Classifier.reset : Classifier := ⟨false, 0, 127, 1, 0, 0⟩

/-! ## SCX messages (chapter 04) -/

/-- A house extension that is present and valid (R56). -/
structure House where
  zone : Int
  jam  : Nat
deriving DecidableEq, Repr

/-- The body of an Offer (R56). -/
structure OfferBody where
  tier      : Nat
  accuracy  : Nat
  stability : Nat
  steps     : Nat
  grand     : Ident
  utc       : Int
  timeTraceable : Bool
  freqTraceable : Bool
  utcValid  : Bool
  house     : Option House
deriving DecidableEq, Repr

/-- An origin or receipt time as a message carries it; not a time when `ns` is above 999,999,999 (R57). -/
structure MessageTime where
  sec : Nat
  ns  : Nat
deriving DecidableEq, Repr

/-- The body of an SCX message (R56 to R58). -/
inductive ScxBody
  | offer (o : OfferBody)
  | beacon (origin : MessageTime)
  | detail (origin : MessageTime)
  | probe
  | reply (receipt : MessageTime) (requester : Ident) (requesterSeq : Nat)
deriving DecidableEq, Repr

/-- A well-formed SCX message (R54). -/
structure Scx where
  domain     : Nat
  paired     : Bool
  exponent   : Int
  sequence   : Nat
  correction : Int
  sender     : Ident
  body       : ScxBody
deriving DecidableEq, Repr

/-- A copy of an SCX message handed to a listener (R32, R33): the message, the frame's source address and the
trimmed ingress timestamp with its step sum. -/
structure ScxCopy where
  msg    : Scx
  source : Station
  stamp  : Stamp
deriving DecidableEq, Repr

/-- A MEDIA datagram offered to the flow monitor (R36, R161). -/
structure MediaCopy where
  group   : BitVec 32
  port    : BitVec 16
  payload : List Byte
  stamp   : Stamp
deriving DecidableEq, Repr

/-- Copies handed by the classifiers of one path and not yet taken (log 8), oldest first. -/
structure Inbox where
  offers    : List ScxCopy
  beacons   : List ScxCopy
  details   : List ScxCopy
  replies   : List ScxCopy
  mediaDown : List MediaCopy
  mediaUp   : List MediaCopy
deriving DecidableEq, Repr

/-! ## Buffers, queues and arbiter (chapter 03) -/

/-- A frame held in a through buffer (R41). -/
structure HeldFrame where
  bytes : List Byte
  kind  : Kind
  mark  : Bool
  stamp : Stamp
deriving DecidableEq, Repr

/-- A through buffer, head first, with its counters (R41, R42, R44, R52). -/
structure ThroughBuffer where
  frames    : List HeldFrame
  admitted  : Nat
  fullDrops : Nat
  linkDrops : Nat
deriving DecidableEq, Repr

/-- A queued Probe: its bytes and its sequence (R45, R97). -/
structure QueuedProbe where
  bytes    : List Byte
  sequence : Nat
deriving DecidableEq, Repr

/-- The injection queues of a network-side port (R45 to R47, R52). -/
structure Injection where
  time         : Option QueuedProbe
  mgmt         : List (List Byte)
  timeSent     : Nat
  mgmtSent     : Nat
  mgmtDrops    : Nat
  linkDiscards : Nat
deriving DecidableEq, Repr

/-- Arbitration classes, in the order of items 300 to 302 (R48). -/
inductive ArbClass | hp | lp | masked
deriving DecidableEq, Repr

/-- A snapshot: a set of requesters (R50). -/
structure Snapshot where
  through : Bool
  time    : Bool
  mgmt    : Bool
deriving DecidableEq, Repr

/-- The next turn (R50). -/
inductive Turn | hp | lp
deriving DecidableEq, Repr

/-- The egress arbiter of a network-side port (R48 to R52). -/
structure Arbiter where
  throughClass  : ArbClass
  timeClass     : ArbClass
  mgmtClass     : ArbClass
  hpSnap        : Snapshot
  lpSnap        : Snapshot
  hpPointer     : Requester
  lpPointer     : Requester
  turn          : Turn
  throughServed : Nat
  timeServed    : Nat
  mgmtServed    : Nat
  skips         : Nat
  idle          : Nat
deriving DecidableEq, Repr

def Arbiter.reset : Arbiter where
  throughClass := .lp
  timeClass := .hp
  mgmtClass := .lp
  hpSnap := ⟨false, false, false⟩
  lpSnap := ⟨false, false, false⟩
  hpPointer := .mgmt
  lpPointer := .mgmt
  turn := .hp
  throughServed := 0
  timeServed := 0
  mgmtServed := 0
  skips := 0
  idle := 0

/-- Correction counters of a path, items 420 to 428 (R71). -/
structure CorrectionCounters where
  singleCorrected : Nat
  probesCorrected : Nat
  created         : Nat
  duplicates      : Nat
  evictions       : Nat
  orphans         : Nat
  matched         : Nat
  unmatched       : Nat
  saturations     : Nat
deriving DecidableEq, Repr

/-- Source counters of a path, items 520 to 528 (R93). -/
structure SourceCounters where
  offersTaken    : Nat
  created        : Nat
  qualifications : Nat
  losses         : Nat
  revivals       : Nat
  purges         : Nat
  muteEntries    : Nat
  replacements   : Nat
  tableFull      : Nat
deriving DecidableEq, Repr

/-- Measurement counters of a path, items 620 to 635 (R109). -/
structure MeasureCounters where
  probesQueued   : Nat
  probesSkipped  : Nat
  probesLost     : Nat
  samples        : Nat
  noSample       : Nat
  strayReplies   : Nat
  unusable       : Nat
  anomalies      : Nat
  completed      : Nat
  abandoned      : Nat
  detailsIgnored : Nat
  withoutEntry   : Nat
  stale          : Nat
  badOrigins     : Nat
  produced       : Nat
  withheld       : Nat
deriving DecidableEq, Repr

/-- The outstanding Probe record (R96, R97): sent when its departure time is present. -/
structure ProbeRecord where
  target    : Ident
  sequence  : Nat
  departure : Option Int
deriving DecidableEq, Repr

/-- The measurement unit's state of one path (R95 to R98, R110). -/
structure Measure where
  lead         : Option Ident
  /-- Elapsed timescale since the last due instant, in correction units (R95). -/
  timer        : Nat
  nextSequence : Nat
  record       : Option ProbeRecord
  exponent     : Int
  windowLength : Nat
  count        : MeasureCounters
deriving DecidableEq, Repr

/-- Everything held per path. -/
structure PathState where
  net        : PortState
  eq         : PortState
  inbox      : Inbox
  classified : ClassifierCounters
  down       : ThroughBuffer
  up         : ThroughBuffer
  queues     : Injection
  arb        : Arbiter
  correction : CorrectionCounters
  sources    : SourceCounters
  measure    : Measure
deriving DecidableEq, Repr

def Inbox.reset : Inbox := ⟨[], [], [], [], [], []⟩
def ClassifierCounters.reset : ClassifierCounters := ⟨0, 0, 0, 0, 0⟩
def ThroughBuffer.reset : ThroughBuffer := ⟨[], 0, 0, 0⟩
def Injection.reset : Injection := ⟨none, [], 0, 0, 0, 0⟩
def CorrectionCounters.reset : CorrectionCounters := ⟨0, 0, 0, 0, 0, 0, 0, 0, 0⟩
def SourceCounters.reset : SourceCounters := ⟨0, 0, 0, 0, 0, 0, 0, 0, 0⟩
def MeasureCounters.reset : MeasureCounters := ⟨0, 0, 0, 0, 0, 0, 0, 0, 0, 0, 0, 0, 0, 0, 0, 0⟩

/-- R110. -/
def Measure.reset : Measure := ⟨none, 0, 0, none, 0, 8, .reset⟩

/-- R40, R51, R53, R71, R93, R110. -/
def PathState.reset : PathState where
  net := .reset
  eq := .reset
  inbox := .reset
  classified := .reset
  down := .reset
  up := .reset
  queues := .reset
  arb := .reset
  correction := .reset
  sources := .reset
  measure := .reset

/-! ## Correction unit (chapter 04) -/

/-- An entry of the residence table (R63). -/
structure ResidenceEntry where
  path      : Path
  sender    : Ident
  domain    : Nat
  sequence  : Nat
  residence : Int
  created   : TimeValue
  /-- Elapsed timescale since creation or replacement, in correction units (R66). -/
  age       : Nat
  /-- Place in age order: smaller is older (R63). -/
  place     : Nat
deriving DecidableEq, Repr

/-- The correction unit's shared state (R59, R63, R66). -/
structure Correction where
  rows      : Vector (Option ResidenceEntry) 32
  nextPlace : Nat
  stepSum   : Int
  lifetime  : Nat
deriving DecidableEq, Repr

def Correction.reset : Correction := ⟨Vector.replicate 32 none, 0, 0, 50⟩

/-! ## Sources and house items (chapter 05), measurement fields of an entry (chapter 06) -/

/-- Entry state, in the order of R73. -/
inductive EntryState | new | qualified | lost
deriving DecidableEq, Repr

/-- A pending Beacon record (R99), with the domain that R57 pairs a Detail by (log 44). The Beacon's approximate origin is
not kept (R99, log 43). -/
structure PendingBeacon where
  domain     : Nat
  sequence   : Nat
  arrival    : Int
  correction : Int
  exponent   : Int
deriving DecidableEq, Repr

/-- A row in use of the SOURCE table (R73). -/
structure SourceEntry where
  sender       : Ident
  path         : Path
  station      : Station
  offer        : OfferBody
  offerExp     : Int
  beaconExp    : Option Int
  state        : EntryState
  count        : Nat
  lastOffer    : Int
  lastBeacon   : Option Int
  mute         : Bool
  ruleRow      : Option (Fin 8)
  rank         : Nat
  barred       : Bool
  /-- Elapsed timescale since the last Offer (R77), since becoming LOST (R79). -/
  sinceOffer   : Nat
  sinceLost    : Nat
  /-- Elapsed timescale since the last completed Beacon while a mute deadline runs (R80). -/
  sinceBeacon  : Option Nat
  pending      : Option PendingBeacon
  leg          : Option Int
  /-- The delay window, oldest sample first (R103). -/
  window       : List Int
deriving DecidableEq, Repr

/-- What a source rule does (R83). -/
inductive RuleAction | prefer (rank : Nat) | bar
deriving DecidableEq, Repr

/-- A set of paths, for rules and flow rows. -/
structure PathSet where
  a : Bool
  b : Bool
deriving DecidableEq, Repr

/-- A row of the RULES table; `sender` none is WILDCARD (R83). -/
structure SourceRule where
  sender : Option Ident
  paths  : PathSet
  action : RuleAction
deriving DecidableEq, Repr

/-- The house items and their pin mask (R89, R90). -/
structure HouseItems where
  utc     : Int
  zone    : Int
  jam     : Nat
  pinUtc  : Bool
  pinZone : Bool
  pinJam  : Bool
deriving DecidableEq, Repr

/-- The source monitor (R73 to R94). -/
structure Sources where
  table     : Vector (Option SourceEntry) 16
  rules     : Vector (Option SourceRule) 8
  selected  : Option (Fin 16)
  qualCount : Nat
  lossLimit : Nat
  preferred : Path
  revertive : Bool
  house     : HouseItems
  changes   : Nat
deriving DecidableEq, Repr

/-- R94. -/
def Sources.reset : Sources where
  table := Vector.replicate 16 none
  rules := Vector.replicate 8 none
  selected := none
  qualCount := 2
  lossLimit := 3
  preferred := .a
  revertive := false
  house := ⟨0, 0, 0, false, false, false⟩
  changes := 0

/-! ## Cadence generators and labels (chapters 07 and 08) -/

inductive LabelMode | off | ndf | df
deriving DecidableEq, Repr

inductive GenCondition | disabled | running | exhausted
deriving DecidableEq, Repr

/-- Last realign cause, in the order of the CADENCE row table. -/
inductive RealignCause | none | reset | write | step | setTime | command
deriving DecidableEq, Repr

/-- The configured part of a CADENCE row (R111). -/
structure GenConfig where
  enabled   : Bool
  n         : Nat
  d         : Nat
  phi       : Int
  labelMode : LabelMode
deriving DecidableEq, Repr

/-- An edge: its index and its instant in whole nanoseconds (R117). -/
structure Edge where
  index   : Int
  instant : Int
deriving DecidableEq, Repr

/-- A label: hours, minutes, seconds, frames, and its drop mark (R133, R134). -/
structure Label where
  hours   : Nat
  minutes : Nat
  seconds : Nat
  frames  : Nat
  drop    : Bool
deriving DecidableEq, Repr

/-- The last label of a generator: its edge index, frame count and label (R130). -/
structure LastLabel where
  index : Int
  count : Nat
  label : Label
deriving DecidableEq, Repr

/-- Mode constants of a labelled generator (R130); `drop` 0 is NDF. -/
structure LabelMath where
  base   : Nat
  drop   : Nat
  t1     : Nat
  t10    : Nat
  perDay : Nat
deriving DecidableEq, Repr

/-- The label state a labelled generator holds (R130). -/
structure LabelState where
  math    : LabelMath
  jamEdge : Option Int
  nextJam : Option Int
  utc     : Int
  zone    : Int
  jam     : Nat
  last    : Option LastLabel
deriving DecidableEq, Repr

/-- A CADENCE row: configured part, running part, label part (R111, R116, R130). -/
structure Generator where
  config       : GenConfig
  condition    : GenCondition
  next         : Option Int
  instant      : Option Int
  remainder    : Option Nat
  gap          : Nat
  gapRemainder : Nat
  last         : Option Edge
  realigns     : Nat
  cause        : RealignCause
  label        : Option LabelState
  wraps        : Nat
  jams         : Nat
deriving DecidableEq, Repr

/-- A row no profile enables: N = 1, D = 1, origin offset 0, mode OFF (R128, R179). -/
def Generator.reset : Generator where
  config := ⟨false, 1, 1, 0, .off⟩
  condition := .disabled
  next := none
  instant := none
  remainder := none
  gap := 0
  gapRemainder := 0
  last := none
  realigns := 0
  cause := .none
  label := none
  wraps := 0
  jams := 0

/-! ## Lines and captures (chapter 09) -/

/-- Output line modes, in the order of the output row table. -/
inductive LineMode | static | idle | pulse | square | oneshot
deriving DecidableEq, Repr

/-- Line state, in the order of the output row table. -/
inductive Level | active | inactive
deriving DecidableEq, Repr

inductive OneShot | armed | done
deriving DecidableEq, Repr

/-- An output line row (chapter 09, R143 to R152). -/
structure OutputLine where
  mode      : LineMode
  cadence   : Fin 16
  divisor   : Nat
  phase     : Nat
  width     : Nat
  activeLow : Bool
  muted     : Bool
  level     : Level
  state     : Level
  /-- Remaining pulse time in correction units (R144). -/
  pulseEnd  : Option Nat
  oneShot   : Option OneShot
  /-- For a pulse fired by ONESHOT: the state the line had before the firing (R144, R148). -/
  before    : Option Level
deriving DecidableEq, Repr

/-- The power-on row of output line i: bound to the line's own number (output row table). -/
def OutputLine.reset (i : Fin 8) : OutputLine where
  mode := .idle
  cadence := i.castLE (by decide)
  divisor := 1
  phase := 0
  width := 1000
  activeLow := false
  muted := false
  level := .inactive
  state := .inactive
  pulseEnd := none
  oneShot := none
  before := none

inductive EdgeSelect | none | rising | falling | both
deriving DecidableEq, Repr

/-- An input line row and the pin's present level (R153). -/
structure InputLine where
  select : EdgeSelect
  bind   : Option (Fin 16)
  high   : Bool
deriving DecidableEq, Repr

/-- A capture record (R153). -/
structure Capture where
  line  : Fin 4
  edge  : EdgeDir
  time  : TimeValue
  state : ServoState
  phase : Option Int
deriving DecidableEq, Repr

/-- The line unit (chapter 09). -/
structure Lines where
  outputs  : Vector OutputLine 8
  inputs   : Vector InputLine 4
  fifo     : List Capture
  overflow : Nat
deriving DecidableEq, Repr

/-- R157; input pins LOW is a DESIGN CHOICE (log 7). -/
def Lines.reset : Lines where
  outputs := Vector.ofFn OutputLine.reset
  inputs := Vector.replicate 4 ⟨.none, none, false⟩
  fifo := []
  overflow := 0

/-! ## Flow monitor (chapter 10) -/

inductive FlowState | idle | active | silent
deriving DecidableEq, Repr

/-- A set of directions, for flow rows. -/
structure DirSet where
  down : Bool
  up   : Bool
deriving DecidableEq, Repr

/-- The configured part of a FLOW row. -/
structure FlowConfig where
  enabled  : Bool
  group    : BitVec 32
  port     : BitVec 16
  paths    : PathSet
  dirs     : DirSet
  rate     : Nat
  offset   : Int
  position : Nat
  lo       : Int
  hi       : Int
  silence  : Nat
deriving DecidableEq, Repr

/-- Last, least and greatest offset, present when the row's valid field is yes (R163). -/
structure FlowOffsets where
  last : Int
  min  : Int
  max  : Int
deriving DecidableEq, Repr

/-- The statistics part of a FLOW row (R163 to R165). -/
structure FlowStats where
  state   : FlowState
  packets : Nat
  offsets : Option FlowOffsets
  outside : Nat
  breach  : Bool
  /-- The silence timer: stopped, or its remaining time in correction units (R165). -/
  timer   : Option Nat
deriving DecidableEq, Repr

structure FlowRow where
  config : FlowConfig
  stats  : FlowStats
deriving DecidableEq, Repr

/-- The statistics of an IDLE row (R159). -/
def FlowStats.reset : FlowStats := ⟨.idle, 0, none, 0, false, none⟩

def FlowRow.reset : FlowRow where
  config := ⟨false, 0, 0, ⟨true, true⟩, ⟨true, true⟩, 90000, 0, 0, -2147483648, 2147483647, 0⟩
  stats := .reset

/-- The flow monitor (chapter 10). -/
structure Flow where
  rows         : Vector FlowRow 64
  enable       : Bool
  measurements : Nat
  shorts       : Nat
  silences     : Nat
deriving DecidableEq, Repr

def Flow.reset : Flow := ⟨Vector.replicate 64 FlowRow.reset, true, 0, 0, 0⟩

/-! ## Control unit (chapter 11) -/

/-- The event flags, in priority order (chapter 11). -/
inductive Event
  | step | freerunEntered | holdoverEntered | lockGained | lockLost | sourceChanged | sourceLost
  | sourceTableFull | outlierLimit | delayAnomaly | probeLost | linkChange | throughDrop
  | detailUnmatched | residenceEvict | residenceOrphan | foreignTime | realign | tcWrap
  | captureReady | captureOverflow | flowBreach | flowSilent | mgmtDrop
deriving DecidableEq, Repr

/-- Command results, in the order of R170. -/
inductive Result
  | ok | noItem | badValue | readOnly | state | duplicate | noRoom | unknownCommand
deriving DecidableEq, Repr

/-- A command's result and the data it returns (R170, R171). -/
structure Answer where
  result : Result
  data   : List Byte
deriving DecidableEq, Repr

/-- The tables, in the order SET_CURSOR numbers them (R173). -/
inductive Table | cadence | flow | source | rules | managers | residence | lines
deriving DecidableEq, Repr

/-- Path select and notice path (R172, R176). -/
inductive PathSelect | a | b | both
deriving DecidableEq, Repr

/-- A CONTROL frame handed to the control unit: its bytes and the path of its arrival port (R31). -/
structure ControlFrame where
  path  : Path
  bytes : List Byte
deriving DecidableEq, Repr

/-- A command entry of a control frame: its code and arguments (chapter 12). -/
structure Entry where
  code : Nat
  args : List Byte
deriving DecidableEq, Repr

/-- The control frame in hand (R169 to R171, log 10). Until it is begun it has been handed over but not checked. -/
structure Execution where
  frame   : ControlFrame
  begun   : Bool
  entries : List Entry
  /-- Result entries formed so far, as bytes, in the order the commands ran. -/
  answers : List (List Byte)
  /-- Entries beyond the thirty-second (R170). -/
  excess  : Nat
deriving DecidableEq, Repr

/-- A control frame in a waiting place and the oscillator time at which it was put there (R169). -/
structure Waiting where
  frame : ControlFrame
  since : Nat
deriving DecidableEq, Repr

/-- Control counters, items 1020 to 1025 (R182). -/
structure ControlCounters where
  executed  : Nat
  rejects   : Nat
  malformed : Nat
  overruns  : Nat
  notices   : Nat
  notRun    : Nat
deriving DecidableEq, Repr

/-- The control unit (chapter 11). -/
structure Control where
  station     : Station
  profile     : BitVec 2
  managers    : Vector (Option Station) 4
  executing   : Option Execution
  waiting     : PerPath (Option Waiting)
  lastServed  : Path
  table       : Table
  row         : Nat
  select      : PathSelect
  destination : Option Station
  noticePath  : PathSelect
  /-- Masked flags, bit p-1 for priority p (R176). -/
  mask        : BitVec 24
  holdoff     : Nat
  flags       : BitVec 24
  /-- The holdoff timer: stopped, or its remaining time in correction units (R177). -/
  timer       : Option Nat
  pendingMark : Bool
  /-- The hold of R178, and whether a notice became due under it. -/
  hold        : Bool
  heldNotice  : Bool
  sequence    : Nat
  softReset   : Bool
  lastResult  : Option Answer
  count       : ControlCounters
deriving DecidableEq, Repr

def ControlCounters.reset : ControlCounters := ⟨0, 0, 0, 0, 0, 0⟩

/-- R180 and the control item table; station address and profile are DESIGN CHOICES (log 5, 6). -/
def Control.reset : Control where
  station := 0
  profile := 0
  managers := Vector.replicate 4 none
  executing := none
  waiting := ⟨none, none⟩
  lastServed := .b
  table := .cadence
  row := 0
  select := .a
  destination := none
  noticePath := .both
  mask := 0xFFFFFC
  holdoff := 100
  flags := 0
  timer := none
  pendingMark := false
  hold := false
  heldNotice := false
  sequence := 0
  softReset := false
  lastResult := none
  count := .reset

/-! ## The whole state -/

/-- The state of the JD442. -/
structure State where
  inReset    : Bool
  /-- Oscillator time passed since reset, in units of 2^-16 ns (log 2). -/
  osc        : Nat
  servo      : Servo
  paths      : PerPath PathState
  classifier : Classifier
  correction : Correction
  sources    : Sources
  gens       : Vector Generator 16
  lines      : Lines
  flow       : Flow
  ctl        : Control
  /-- Free values read so far (log 37). -/
  free       : Nat
  /-- Commands waiting, first in, first out. -/
  pending    : List Instr
deriving DecidableEq, Repr

/-- The part right after reset release with both straps low: every block at its reset state (R180). -/
def State.reset : State where
  inReset := false
  osc := 0
  servo := .reset
  paths := ⟨.reset, .reset⟩
  classifier := .reset
  correction := .reset
  sources := .reset
  gens := Vector.replicate 16 .reset
  lines := .reset
  flow := .reset
  ctl := .reset
  free := 0
  pending := []

end Sys2Proof.Machine
end

