-- ==== Sys2Proof/Machine/Ops.lean ====
section
/-! DEFINITION. Shared operations: counters, arithmetic of timescale values, rows of tables, elapsing time, and the
two wrappers every meaning is written with (an event, a management command comes in Control.lean). -/

namespace Sys2Proof.Machine

open Sys2Proof.Config

/-! ## Counters and clamps -/

/-- A counter rises by n and saturates at 2^32 - 1 (00_scope, 'Counters'). -/
def bumpBy (n c : Nat) : Nat := min (c + n) counterMax

/-- A counter rises by 1. -/
def bump (c : Nat) : Nat := bumpBy 1 c

/-- Clamp to the nearer end of a range. -/
def clampInt (lo hi v : Int) : Int := max lo (min hi v)

/-- The same on an unsigned value (log 35). -/
def clampNat (lo hi v : Nat) : Nat := max lo (min hi v)

/-! ## Timescale values (R1, R3) -/

/-- A timescale value as a count of sub-nanoseconds from the epoch. -/
def units (t : TimeValue) : Nat := (t.sec * nsPerSec + t.ns) * unitsPerNs + t.sub

/-- The normal form of a count of sub-nanoseconds (R1). -/
def ofUnits (u : Nat) : TimeValue :=
  ⟨u / unitsPerSec, u / unitsPerNs % nsPerSec, u % unitsPerNs⟩

/-- A timescale value in whole nanoseconds, sub-nanoseconds dropped (R117, R120). -/
def wholeNs (t : TimeValue) : Nat := t.sec * nsPerSec + t.ns

/-- The normal form of R1, within its largest value. -/
def TimeValue.normal (t : TimeValue) : Bool :=
  t.sec < secondsEnd && t.ns < nsPerSec && t.sub < unitsPerNs

/-- The timescale now, in correction units. -/
def State.now (s : State) : Nat := units s.servo.time

/-- 2^x seconds in correction units, for the exponents of R77, R80 and R95 (-7 to 4). -/
def expSeconds (x : Int) : Nat :=
  if 0 ≤ x then unitsPerSec * 2 ^ x.toNat else unitsPerSec / 2 ^ (-x).toNat

/-! ## Rows of tables -/

/-- The lowest row that holds something satisfying p. -/
def findRow {α : Type} {n : Nat} (t : Vector (Option α) n) (p : α → Bool) : Option (Fin n) :=
  (List.finRange n).find? fun i => (t[i]).any p

/-- The lowest-numbered free row. -/
def freeRow {α : Type} {n : Nat} (t : Vector (Option α) n) : Option (Fin n) :=
  (List.finRange n).find? fun i => (t[i]).isNone

/-- Rows in use. -/
def rowsInUse {α : Type} {n : Nat} (t : Vector (Option α) n) : Nat :=
  (List.finRange n).countP fun i => (t[i]).isSome

/-- Change every element of a fixed table. -/
def mapRows {α β : Type} {n : Nat} (t : Vector α n) (f : α → β) : Vector β n := Vector.ofFn fun i : Fin n => f t[i]

/-- Change every row in use. -/
def mapEntries {α : Type} {n : Nat} (t : Vector (Option α) n) (f : α → α) : Vector (Option α) n :=
  mapRows t (Option.map f)

/-- Change one element of a fixed table. -/
def modifyRow {α : Type} {n : Nat} (t : Vector α n) (i : Fin n) (f : α → α) : Vector α n :=
  t.set i (f t[i])

/-- Change one row in use. -/
def modifyEntry {α : Type} {n : Nat} (t : Vector (Option α) n) (i : Fin n) (f : α → α) :
    Vector (Option α) n :=
  modifyRow t i (Option.map f)

/-! ## Parts of the state -/

/-- The state of one port. -/
def PathState.port (p : PathState) (net : Bool) : PortState := if net then p.net else p.eq

def PathState.modPort (p : PathState) (net : Bool) (f : PortState → PortState) : PathState :=
  if net then { p with net := f p.net } else { p with eq := f p.eq }

def State.path (s : State) (p : Path) : PathState := s.paths.get p

def State.port (s : State) (p : Port) : PortState := (s.path p.path).port p.isNet

/-- Change what one path holds. -/
def State.modPath (s : State) (p : Path) (f : PathState → PathState) : State :=
  { s with paths := s.paths.set p (f (s.paths.get p)) }

def State.modPort (s : State) (p : Port) (f : PortState → PortState) : State :=
  s.modPath p.path fun q => q.modPort p.isNet f

def State.modServo (s : State) (f : Servo → Servo) : State := { s with servo := f s.servo }

def State.modSources (s : State) (f : Sources → Sources) : State := { s with sources := f s.sources }

def State.modControl (s : State) (f : Control → Control) : State := { s with ctl := f s.ctl }

def State.modCorrection (s : State) (f : Correction → Correction) : State :=
  { s with correction := f s.correction }

def State.modLines (s : State) (f : Lines → Lines) : State := { s with lines := f s.lines }

def State.modFlow (s : State) (f : Flow → Flow) : State := { s with flow := f s.flow }

def State.modGen (s : State) (g : Fin 16) (f : Generator → Generator) : State :=
  { s with gens := modifyRow s.gens g f }

/-- Change the path counters of the measurement unit. -/
def State.countMeasure (s : State) (p : Path) (f : MeasureCounters → MeasureCounters) : State :=
  s.modPath p fun q => { q with measure := { q.measure with count := f q.measure.count } }

/-- Change the path counters of the source monitor. -/
def State.countSources (s : State) (p : Path) (f : SourceCounters → SourceCounters) : State :=
  s.modPath p fun q => { q with sources := f q.sources }

/-- The part's SCX identity on a path: the station address followed by 1 or 2 (00_scope). -/
def identityOf (station : Station) : Path → Ident
  | .a => station ++ (1 : BitVec 16)
  | .b => station ++ (2 : BitVec 16)

/-! ## Elapsing time (R1, R2, R14, R66, R77, R95, R144, R165, R177) -/

/-- What `dt` of oscillator time makes of the servo's time: the advance in whole sub-nanoseconds at the trim in
force, and the fraction carried on (R1, R2). -/
def advanceOf (trim : Int) (frac dt : Nat) : Nat × Nat :=
  let sum := dt * (trimDenom + trim).toNat + frac
  (sum / trimDenom, sum % trimDenom)

/-- The timescale after an advance: it holds its largest value (R1). -/
def advanceTime (t : TimeValue) (adv : Nat) : TimeValue := ofUnits (min (units t + adv) maxUnits)

def HoldoverTimer.elapse (adv : Nat) : HoldoverTimer → HoldoverTimer
  | .stopped => .stopped
  | .running left => .running (left - adv)
  | .held left => .held left

def Servo.elapse (dt : Nat) (v : Servo) : Servo :=
  let a := advanceOf v.trim v.frac dt
  { v with time := advanceTime v.time a.1, frac := a.2, timer := v.timer.elapse a.1 }

def PathState.elapse (adv : Nat) (p : PathState) : PathState :=
  { p with measure := { p.measure with timer := p.measure.timer + adv } }

def ResidenceEntry.elapse (adv : Nat) (e : ResidenceEntry) : ResidenceEntry :=
  { e with age := e.age + adv }

def SourceEntry.elapse (adv : Nat) (e : SourceEntry) : SourceEntry :=
  { e with
    sinceOffer := e.sinceOffer + adv
    sinceLost := e.sinceLost + adv
    sinceBeacon := e.sinceBeacon.map (· + adv) }

def OutputLine.elapse (adv : Nat) (l : OutputLine) : OutputLine :=
  { l with pulseEnd := l.pulseEnd.map (· - adv) }

def FlowRow.elapse (adv : Nat) (r : FlowRow) : FlowRow :=
  { r with stats := { r.stats with timer := r.stats.timer.map (· - adv) } }

/-- `dt` of oscillator time passes: the timescale advances at the trim in force and every timer and age runs on
elapsed timescale, at the largest timescale value too (R1). -/
def State.elapse (dt : Nat) (s : State) : State :=
  let adv := (advanceOf s.servo.trim s.servo.frac dt).1
  { s with
    osc := s.osc + dt
    servo := s.servo.elapse dt
    paths := s.paths.map (·.elapse adv)
    correction := { s.correction with rows := mapEntries s.correction.rows (·.elapse adv) }
    sources := { s.sources with table := mapEntries s.sources.table (·.elapse adv) }
    lines := { s.lines with outputs := mapRows s.lines.outputs (·.elapse adv) }
    flow := { s.flow with rows := mapRows s.flow.rows (·.elapse adv) }
    ctl := { s.ctl with timer := s.ctl.timer.map (· - adv) } }

/-- The outcome type of every meaning. -/
abbrev Outcome := Host.Outcome State Fault Refusal

/-- An event: time passes and the event is taken; in reset the part takes no event (R180, log 4). -/
def event (dt : Nat) (f : State → State) (s : State) : Outcome :=
  .next (if s.inReset then s else f (s.elapse dt))

end Sys2Proof.Machine
end

