-- ==== Sys2Proof/Machine/EdgeMath.lean ====
section
/-! DEFINITION. Exact edge instants of a cadence generator, and the questions other blocks put to it
(R115, R120, R126). Divisions floor: the divisors are positive. -/

namespace Sys2Proof.Machine

open Sys2Proof.Config

/-- D * 10^9, the numerator of the period in nanoseconds. -/
def GenConfig.span (c : GenConfig) : Int := c.d * nsPerSec

/-- The instant of edge k in whole nanoseconds (R115). -/
def GenConfig.edgeAt (c : GenConfig) (k : Int) : Int := c.phi + k * c.span / c.n

/-- The remainder of edge k (R116). -/
def GenConfig.remainderAt (c : GenConfig) (k : Int) : Nat := (k * c.span % c.n).toNat

/-- The gap quotient and gap remainder (R116). -/
def GenConfig.gap (c : GenConfig) : Nat := c.d * nsPerSec / c.n

def GenConfig.gapRemainder (c : GenConfig) : Nat := c.d * nsPerSec % c.n

/-- The starting index of a realign at t (R120 step 2). -/
def GenConfig.startIndex (c : GenConfig) (t : Int) : Int := (t - c.phi) * c.n / c.span + 1

/-- An index of the signed 64-bit range (R126). -/
def inIndexRange (k : Int) : Option Int := if indexMin ≤ k ∧ k ≤ indexMax then some k else none

/-- The first edge at or after an instant: the exact ceiling (R126). -/
def GenConfig.firstAtOrAfter (c : GenConfig) (u : Int) : Option Int :=
  inIndexRange (-(-((u - c.phi) * c.n) / c.span))

/-- The edge at or before an instant (R126). -/
def GenConfig.edgeBefore (c : GenConfig) (u : Int) : Option Int :=
  inIndexRange ((u - c.phi) * c.n / c.span)

/-- The instants of the edges on either side of u; none when an index is out of range (R126). -/
def GenConfig.around (c : GenConfig) (u : Int) : Option (Int × Int) :=
  match c.edgeBefore u with
  | none => none
  | some k =>
    match inIndexRange (k + 1) with
    | none => none
    | some k' => some (c.edgeAt k, c.edgeAt k')

/-- The phase of an instant against the nearest edge, the earlier one at equal distances (R154). -/
def phaseOf (u e1 e2 : Int) : Int := if u - e1 ≤ e2 - u then u - e1 else u - e2

end Sys2Proof.Machine
end

