-- ==== Sys2Proof/Machine/Bytes.lean ====
section
/-! DEFINITION. Bytes of frames, rows and records: numbers most significant byte first (R183), fields by offset,
the frame check sequence (R185), and the encodings of values, none and enumerations (R183). -/

namespace Sys2Proof.Machine

open Sys2Proof.Config

/-! ## Reading -/

/-- An unsigned number, most significant byte first (R183). -/
def beNat (l : List Byte) : Nat := l.foldl (fun n b => n * 256 + b.toNat) 0

/-- Two's complement reading of an n-byte number (R183). -/
def signedOf (n v : Nat) : Int := if 2 * v < 256 ^ n then v else (v : Int) - 256 ^ n

/-- The bytes at an offset. -/
def slice (l : List Byte) (off len : Nat) : List Byte := (l.drop off).take len

/-- An unsigned field. -/
def fieldAt (l : List Byte) (off len : Nat) : Nat := beNat (slice l off len)

/-- A signed field. -/
def signedAt (l : List Byte) (off len : Nat) : Int := signedOf len (fieldAt l off len)

/-- One byte, 0 past the end. -/
def byteAt (l : List Byte) (off : Nat) : Byte := l.getD off 0

/-! ## Writing -/

/-- The low n bytes of a number, most significant first (R183). -/
def beBytes : Nat → Nat → List Byte
  | 0, _ => []
  | n + 1, v => BitVec.ofNat 8 (v / 256 ^ n) :: beBytes n v

/-- An unsigned field; a value that does not fit it shows a free value (log 18). -/
def putNat (n v : Nat) : List Byte :=
  if v < 256 ^ n then beBytes n v else beBytes n (fieldBeyond n v)

/-- A signed field in two's complement (R183); a value that does not fit it shows a free value (log 18). -/
def putInt (n : Nat) (v : Int) : List Byte :=
  if -(256 ^ n : Int) ≤ 2 * v ∧ 2 * v < 256 ^ n then beBytes n (v % 256 ^ n).toNat
  else beBytes n (fieldBeyond n v)

/-- Zero bytes. -/
def zeros (n : Nat) : List Byte := List.replicate n 0

/-- None in an unsigned field: all ones (R183). -/
def noneBytes (n : Nat) : List Byte := List.replicate n 0xFF

/-- None in a field that can also hold signed values: the most negative value (R183). -/
def noneSigned : Nat → List Byte
  | 0 => []
  | n + 1 => 0x80 :: zeros n

def putNat? (n : Nat) : Option Nat → List Byte
  | none => noneBytes n
  | some v => putNat n v

def putInt? (n : Nat) : Option Int → List Byte
  | none => noneSigned n
  | some v => putInt n v

/-- A bit vector of whole bytes. -/
def putBits {w : Nat} (n : Nat) (v : BitVec w) : List Byte := beBytes n v.toNat

/-- A timescale value: seconds in 6 bytes, nanoseconds in 4, sub-nanoseconds in 2 (R183). -/
def putTime (t : TimeValue) : List Byte := putNat 6 t.sec ++ putNat 4 t.ns ++ putNat 2 t.sub

/-- A signed count of correction units shown as a timescale value (R92, R108); one that is no timescale value
shows a free value (log 18). -/
def putUnits (u : Int) : List Byte :=
  if 0 ≤ u ∧ u ≤ maxUnits then putTime (ofUnits u.toNat) else beBytes 12 (fieldBeyond 12 u)

def putUnits? : Option Int → List Byte
  | none => noneBytes 12
  | some u => putUnits u

/-- A two-valued field whose owning table lists the true value first, as 'yes, no', 'set, clear' and 'true, false'
are listed, numbered in that order (R183, log 13). -/
def yesNo (v : Bool) : Nat := if v then 0 else 1

/-- A setting listed 'OFF, ON' (R183). -/
def offOn (v : Bool) : Nat := if v then 1 else 0

/-! ## The frame check sequence (R185) -/

/-- One bit into the register: generator polynomial 04C11DB7h. -/
def crcBit (reg : BitVec 32) (bit : Bool) : BitVec 32 :=
  if xor reg.msb bit then (reg <<< 1) ^^^ 0x04C11DB7#32 else reg <<< 1

/-- One byte, least significant bit first. -/
def crcByte (reg : BitVec 32) (b : Byte) : BitVec 32 :=
  (List.range 8).foldl (fun r i => crcBit r (b.getLsbD i)) reg

/-- A number evaluated before it is passed on; its value is not changed (`forced_eq` in Laws/Specs.lean). -/
def forced {α : Type} (v : Nat) (k : Nat → α) : α :=
  match v with
  | 0 => k 0
  | n + 1 => k (n + 1)

/-- The register after the bytes, in order. -/
def crcBytes : List Byte → BitVec 32 → BitVec 32
  | [], reg => reg
  | b :: l, reg => forced (crcByte reg b).toNat fun n => crcBytes l (BitVec.ofNat 32 n)

/-- The check value: the register started at all ones, the result bit-reversed and inverted. -/
def crc32 (l : List Byte) : BitVec 32 := ~~~ (crcBytes l 0xFFFFFFFF#32).reverse

/-- The check sequence as sent: least significant byte first. -/
def checkBytes (l : List Byte) : List Byte := (beBytes 4 (crc32 l).toNat).reverse

/-- The frame without its check sequence. -/
def frameBody (f : List Byte) : List Byte := f.take (f.length - 4)

/-- Whether the check sequence matches the contents (R28). -/
def checkOk (f : List Byte) : Bool := f.drop (f.length - 4) == checkBytes (frameBody f)

/-- A frame of these contents, padded with zeros to the 64-byte frame minimum, with its check sequence
(R184, R186). -/
def sealFrame (body : List Byte) : List Byte :=
  let padded := body ++ zeros (minFrame - 4 - body.length)
  padded ++ checkBytes padded

end Sys2Proof.Machine
end

