-- ==== Sys2Proof/Machine/Operands.lean ====
section
/-! DEFINITION. The operand forms: how the part reads Ethernet frames, SCX messages, IPv4 and UDP headers, control
requests and the rows a WRITE_ROW carries (R29, R183 to R187), and the enumerations of items and rows. -/

namespace Sys2Proof.Machine

open Sys2Proof.Config

/-! ## Ethernet (R29, R185) -/

/-- A frame as the classifier reads it. -/
structure EthFrame where
  dst     : Station
  src     : Station
  /-- The 4 bytes of a single VLAN tag. -/
  tag     : Option (List Byte)
  /-- Two or more stacked tags (R29). -/
  stacked : Bool
  etype   : Nat
  /-- The offset of the first byte after the type field. -/
  off     : Nat
  /-- The bytes from there to the frame check sequence. -/
  payload : List Byte

def isTagType (t : Nat) : Bool := t == 0x8100 || t == 0x88A8

def readFrame (f : List Byte) : EthFrame :=
  let first := fieldAt f 12 2
  let tagged := isTagType first
  let off := if tagged then 18 else 14
  { dst := BitVec.ofNat 48 (fieldAt f 0 6)
    src := BitVec.ofNat 48 (fieldAt f 6 6)
    tag := if tagged then some (slice f 12 4) else none
    stacked := tagged && isTagType (fieldAt f 16 2)
    etype := if tagged then fieldAt f 16 2 else first
    off := off
    payload := slice f off (f.length - 4 - off) }

/-! ## SCX messages (R29, R54 to R58, chapter 12) -/

/-- The least length of header and body of a kind code (chapter 12). -/
def scxMinLength : Nat → Option Nat
  | 1 => some 44
  | 2 => some 40
  | 3 => some 40
  | 4 => some 40
  | 5 => some 52
  | _ => none

/-- Bits 7 to 4 of the first byte. -/
def scxVersion (p : List Byte) : Nat := (byteAt p 0).toNat / 16

def scxKind (p : List Byte) : Nat := (byteAt p 0).toNat % 16

def scxLength (p : List Byte) : Nat := fieldAt p 4 2

/-- Well formed under R29. -/
def scxWellFormed (p : List Byte) : Bool :=
  28 ≤ p.length && scxVersion p == 1 && (byteAt p 1).toNat ≤ 127 && scxLength p ≤ p.length &&
    match scxMinLength (scxKind p) with
    | none => false
    | some m => m ≤ scxLength p

/-- The house extension: present when the length covers it, absent when its values are out of range (R56). -/
def readHouse (p : List Byte) : Option House :=
  let zone := signedAt p 44 4
  let jam := fieldAt p 48 4
  if 52 ≤ scxLength p ∧ zone % 900 = 0 ∧ -50400 ≤ zone ∧ zone ≤ 50400 ∧ jam ≤ 86399 then some ⟨zone, jam⟩
  else none

def readOffer (p : List Byte) : OfferBody where
  tier := fieldAt p 28 1
  accuracy := fieldAt p 29 1
  stability := fieldAt p 30 2
  steps := fieldAt p 32 1
  timeTraceable := (byteAt p 33).getLsbD 0
  freqTraceable := (byteAt p 33).getLsbD 1
  utcValid := (byteAt p 33).getLsbD 2
  utc := signedAt p 34 2
  grand := BitVec.ofNat 64 (fieldAt p 36 8)
  house := readHouse p

/-- An origin or receipt time: seconds in 6 bytes, nanoseconds in 4 (R183). -/
def readMessageTime (p : List Byte) (off : Nat) : MessageTime := ⟨fieldAt p off 6, fieldAt p (off + 6) 4⟩

def readBody (p : List Byte) : ScxBody :=
  match scxKind p with
  | 1 => .offer (readOffer p)
  | 2 => .beacon (readMessageTime p 28)
  | 3 => .detail (readMessageTime p 28)
  | 4 => .probe
  | _ => .reply (readMessageTime p 28) (BitVec.ofNat 64 (fieldAt p 40 8)) (fieldAt p 48 2)

/-- The SCX message of the bytes after the type field, when it is well formed (R29, R54). -/
def readScx (p : List Byte) : Option Scx :=
  if scxWellFormed p then
    some { domain := fieldAt p 1 1
           paired := (byteAt p 2).getLsbD 0
           exponent := signedAt p 3 1
           sequence := fieldAt p 6 2
           correction := signedAt p 8 8
           sender := BitVec.ofNat 64 (fieldAt p 16 8)
           body := readBody p }
  else none

/-- The SCX message of a frame of the SCX frame type after at most one tag (R29). -/
def frameScx (f : List Byte) : Option Scx :=
  let e := readFrame f
  if e.etype = scxType ∧ e.stacked = false then readScx e.payload else none

/-- The frame with its correction field replaced and its check sequence recomputed; no other byte changes (R60). -/
def withCorrection (f : List Byte) (c : Int) : List Byte :=
  let at_ := (readFrame f).off + 8
  let body := (frameBody f).take at_ ++ beBytes 8 (c % 256 ^ 8).toNat ++ (frameBody f).drop (at_ + 8)
  body ++ checkBytes body

/-- A message time in correction units, and whether it is a time at all (R57, chapter 06). -/
def MessageTime.isTime (t : MessageTime) : Bool := t.ns ≤ 999999999

def MessageTime.units (t : MessageTime) : Int := ((t.sec * nsPerSec + t.ns) * unitsPerNs : Nat)

/-! ## IPv4 and UDP (R36, R161, R185) -/

/-- Bytes of the IPv4 header. -/
def ipHeaderLength (p : List Byte) : Nat := 4 * ((byteAt p 0).toNat % 16)

/-- The tests of R36 on the datagram itself. -/
def isMeasurable (p : List Byte) : Bool :=
  let h := ipHeaderLength p
  20 ≤ p.length && (byteAt p 0).toNat / 16 == 4 && 20 ≤ h && (byteAt p 9).toNat == 17 &&
    h + 8 ≤ p.length && h + 8 ≤ fieldAt p 2 2 &&
    !(byteAt p 6).getLsbD 5 && fieldAt p 6 2 % 8192 == 0

/-- The UDP payload: the UDP length less 8, no more than the bytes present before the end of the datagram (R161). -/
def udpPayload (p : List Byte) : List Byte :=
  let h := ipHeaderLength p
  slice p (h + 8) (min (fieldAt p (h + 4) 2 - 8) (min (fieldAt p 2 2) p.length - (h + 8)))

/-- The datagram of a frame of type IPv4 that R36 lets the flow table match. -/
def frameMedia (f : List Byte) (stamp : Stamp) : Option MediaCopy :=
  let e := readFrame f
  let p := e.payload
  if e.etype = ipv4Type ∧ e.stacked = false ∧ isMeasurable p then
    some ⟨BitVec.ofNat 32 (fieldAt p 16 4), BitVec.ofNat 16 (fieldAt p (ipHeaderLength p + 2) 2), udpPayload p, stamp⟩
  else none

/-! ## Control requests (R169, R186) -/

/-- The command entries of the span, which they must fill exactly; the first argument bounds the walk. -/
def readEntries : Nat → List Byte → Option (List Entry)
  | _, [] => some []
  | 0, _ :: _ => none
  | fuel + 1, l =>
    let len := fieldAt l 0 2
    if 4 ≤ l.length ∧ 4 ≤ len ∧ len ≤ l.length then
      match readEntries fuel (l.drop len) with
      | none => none
      | some es => some (⟨fieldAt l 2 2, slice l 4 (len - 4)⟩ :: es)
    else none

/-- The tag and entries of a well-formed request (R186). -/
def readRequest (p : List Byte) : Option (Nat × List Entry) :=
  let len := fieldAt p 4 2
  if byteAt p 0 = 0 ∧ 12 ≤ len ∧ len ≤ p.length then
    match readEntries p.length (slice p 8 (len - 8)) with
    | none => none
    | some es => some (fieldAt p 2 2, es)
  else none

/-! ## Rows of a WRITE_ROW (R187) -/

def readCadenceWrite (l : List Byte) : CadenceWrite where
  enabled := byteAt l 0
  labelMode := byteAt l 1
  n := BitVec.ofNat 32 (fieldAt l 4 4)
  d := BitVec.ofNat 16 (fieldAt l 8 2)
  phi := BitVec.ofNat 32 (fieldAt l 12 4)

def readFlowWrite (l : List Byte) : FlowWrite where
  enabled := byteAt l 0
  pathSet := byteAt l 1
  dirSet := byteAt l 2
  stampPos := byteAt l 3
  group := BitVec.ofNat 32 (fieldAt l 4 4)
  port := BitVec.ofNat 16 (fieldAt l 8 2)
  silence := BitVec.ofNat 16 (fieldAt l 10 2)
  rate := BitVec.ofNat 32 (fieldAt l 12 4)
  offset := BitVec.ofNat 32 (fieldAt l 16 4)
  lo := BitVec.ofNat 32 (fieldAt l 20 4)
  hi := BitVec.ofNat 32 (fieldAt l 24 4)

def readRuleWrite (l : List Byte) : RuleWrite where
  inUse := byteAt l 0
  pathSet := byteAt l 1
  action := byteAt l 2
  rank := byteAt l 3
  form := byteAt l 4
  ident := BitVec.ofNat 64 (fieldAt l 8 8)

def readManagerWrite (l : List Byte) : ManagerWrite where
  inUse := byteAt l 0
  station := BitVec.ofNat 48 (fieldAt l 2 6)

def readLineWrite (l : List Byte) : LineWrite :=
  match (byteAt l 0).toNat with
  | 0 => .output { mode := byteAt l 1, cadence := byteAt l 2, polarity := byteAt l 3
                   divisor := BitVec.ofNat 16 (fieldAt l 4 2), phase := BitVec.ofNat 16 (fieldAt l 6 2)
                   width := BitVec.ofNat 32 (fieldAt l 8 4), mute := byteAt l 12, level := byteAt l 13 }
  | 1 => .input ⟨byteAt l 1, byteAt l 2⟩
  | _ => .otherForm

/-! ## Enumerations, numbered in the order their owning table lists them (R183) -/

def readYesNo (b : Byte) : Option Bool :=
  match b.toNat with
  | 0 => some true
  | 1 => some false
  | _ => none

def readOffOn (v : Nat) : Option Bool :=
  match v with
  | 0 => some false
  | 1 => some true
  | _ => none

def readPath (v : Nat) : Option Path :=
  match v with
  | 0 => some .a
  | 1 => some .b
  | _ => none

def readPathSelect (v : Nat) : Option PathSelect :=
  match v with
  | 0 => some .a
  | 1 => some .b
  | 2 => some .both
  | _ => none

def readClass (v : Nat) : Option ArbClass :=
  match v with
  | 0 => some .hp
  | 1 => some .lp
  | 2 => some .masked
  | _ => none

def readLabelMode (b : Byte) : Option LabelMode :=
  match b.toNat with
  | 0 => some .off
  | 1 => some .ndf
  | 2 => some .df
  | _ => none

def readLineMode (b : Byte) : Option LineMode :=
  match b.toNat with
  | 0 => some .static
  | 1 => some .idle
  | 2 => some .pulse
  | 3 => some .square
  | 4 => some .oneshot
  | _ => none

def readLevel (b : Byte) : Option Level :=
  match b.toNat with
  | 0 => some .active
  | 1 => some .inactive
  | _ => none

/-- Polarity: ACTIVE HIGH, ACTIVE LOW; true is ACTIVE LOW. -/
def readPolarity (b : Byte) : Option Bool := readOffOn b.toNat

def readEdgeSelect (b : Byte) : Option EdgeSelect :=
  match b.toNat with
  | 0 => some .none
  | 1 => some .rising
  | 2 => some .falling
  | 3 => some .both
  | _ => none

/-- A path set: A 1, B 2, both 3 (R187). -/
def readPathSet (b : Byte) : Option PathSet :=
  match b.toNat with
  | 1 => some ⟨true, false⟩
  | 2 => some ⟨false, true⟩
  | 3 => some ⟨true, true⟩
  | _ => none

/-- A direction set: down 1, up 2, both 3 (R187). -/
def readDirSet (b : Byte) : Option DirSet :=
  match b.toNat with
  | 1 => some ⟨true, false⟩
  | 2 => some ⟨false, true⟩
  | 3 => some ⟨true, true⟩
  | _ => none

def readTable (b : Byte) : Option Table :=
  match b.toNat with
  | 0 => some .cadence
  | 1 => some .flow
  | 2 => some .source
  | 3 => some .rules
  | 4 => some .managers
  | 5 => some .residence
  | 6 => some .lines
  | _ => none

def Table.code : Table → Nat
  | .cadence => 0
  | .flow => 1
  | .source => 2
  | .rules => 3
  | .managers => 4
  | .residence => 5
  | .lines => 6

/-- Rows of a table (R173). -/
def Table.rows : Table → Nat
  | .cadence => 16
  | .flow => 64
  | .source => 16
  | .rules => 8
  | .managers => 4
  | .residence => 32
  | .lines => 12

def Path.code : Path → Nat
  | .a => 0
  | .b => 1

def PathSelect.code : PathSelect → Nat
  | .a => 0
  | .b => 1
  | .both => 2

/-- Whether a path select names a path. -/
def PathSelect.names : PathSelect → Path → Bool
  | .a, .a => true
  | .b, .b => true
  | .both, _ => true
  | _, _ => false

/-- The path a read reaches: path A's value for BOTH (R172). -/
def PathSelect.readPath : PathSelect → Path
  | .b => .b
  | _ => .a

def ArbClass.code : ArbClass → Nat
  | .hp => 0
  | .lp => 1
  | .masked => 2

def ServoState.code : ServoState → Nat
  | .freerun => 0
  | .acquire => 1
  | .locked => 2
  | .holdover => 3

def Result.code : Result → Nat
  | .ok => 0
  | .noItem => 1
  | .badValue => 2
  | .readOnly => 3
  | .state => 4
  | .duplicate => 5
  | .noRoom => 6
  | .unknownCommand => 7

def PathSet.has (s : PathSet) : Path → Bool
  | .a => s.a
  | .b => s.b

def PathSet.code (s : PathSet) : Nat := (if s.a then 1 else 0) + (if s.b then 2 else 0)

def DirSet.code (s : DirSet) : Nat := (if s.down then 1 else 0) + (if s.up then 2 else 0)

end Sys2Proof.Machine
end

