-- ==== Sys2Proof/Machine/Egress.lean ====
section
/-! DEFINITION. Through buffers, injection queues and the egress arbiter of a network-side port, as functions of
one path's state (chapter 03), with what leaving a network-side port does: a marked Probe is corrected (R62), a
Probe of the part hands over its departure time (R97). None of these raises an event. -/

namespace Sys2Proof.Machine

open Sys2Proof.Config

/-- The instant an egress timestamp is taken at: the raw timescale in correction units and the step sum. -/
structure Instant where
  time    : Nat
  stepSum : Int

/-- The trimmed egress timestamp (R26). -/
def egressTime (i : Instant) (p : PortState) : Int := i.time + p.egressTrim * unitsPerNs

/-- The trimmed ingress timestamp (R26). -/
def ingressTime (i : Instant) (p : PortState) : Int := i.time - p.ingressTrim * unitsPerNs

/-! ## Residence and amendment (R59, R60) -/

/-- The residence of a frame leaving through a port now (R59). -/
def residence (i : Instant) (port : PortState) (stamp : Stamp) : Int :=
  egressTime i port - stamp.time - (i.stepSum - stamp.stepSum)

/-- The new correction, saturated to signed 64 bits, and whether it saturated (R60). -/
def addCorrection (old add : Int) : Int × Bool :=
  let sum := old + add
  (clampInt indexMin indexMax sum, decide (sum < indexMin ∨ indexMax < sum))

def countSaturation (sat : Bool) (c : CorrectionCounters) : CorrectionCounters :=
  if sat then { c with saturations := bump c.saturations } else c

/-! ## Buffers and queues -/

/-- Segments a frame occupies (chapter 03). -/
def frameSegments (f : List Byte) : Nat := (f.length + (segmentBytes - 1)) / segmentBytes

def ThroughBuffer.segmentsUsed (b : ThroughBuffer) : Nat := (b.frames.map (frameSegments ·.bytes)).sum

/-- Whether a frame finds room: fewer than 32 frames held and segments enough (R42). -/
def ThroughBuffer.hasRoom (b : ThroughBuffer) (f : List Byte) : Bool :=
  b.frames.length < bufferFrames && b.segmentsUsed + frameSegments f ≤ segments

def ThroughBuffer.admitFrame (b : ThroughBuffer) (f : HeldFrame) : ThroughBuffer :=
  { b with frames := b.frames ++ [f], admitted := bump b.admitted }

/-- Every frame held is removed and counted as a link drop (R44). -/
def ThroughBuffer.flush (b : ThroughBuffer) : ThroughBuffer :=
  { b with frames := [], linkDrops := bumpBy b.frames.length b.linkDrops }

/-- The head leaves by transmission (R43). -/
def ThroughBuffer.dropHead (b : ThroughBuffer) : ThroughBuffer := { b with frames := b.frames.tail }

/-- Both queues are emptied, each frame an injection link discard (R47). -/
def Injection.empty (q : Injection) : Injection :=
  { q with
    time := none
    mgmt := []
    linkDiscards := bumpBy (q.mgmt.length + (if q.time.isSome then 1 else 0)) q.linkDiscards }

/-! ## The arbiter (R48 to R51) -/

def Snapshot.has (s : Snapshot) : Requester → Bool
  | .through => s.through
  | .time => s.time
  | .mgmt => s.mgmt

def Snapshot.remove (s : Snapshot) : Requester → Snapshot
  | .through => { s with through := false }
  | .time => { s with time := false }
  | .mgmt => { s with mgmt := false }

def Snapshot.isEmpty (s : Snapshot) : Bool := !s.through && !s.time && !s.mgmt

def Snapshot.none : Snapshot := ⟨false, false, false⟩

def Arbiter.classOf (a : Arbiter) : Requester → ArbClass
  | .through => a.throughClass
  | .time => a.timeClass
  | .mgmt => a.mgmtClass

def Arbiter.setClass (a : Arbiter) (r : Requester) (c : ArbClass) : Arbiter :=
  match r with
  | .through => { a with throughClass := c }
  | .time => { a with timeClass := c }
  | .mgmt => { a with mgmtClass := c }

/-- The cyclic order THROUGH, TIME, MGMT, starting after a pointer (R50). -/
def cyclicAfter : Requester → List Requester
  | .through => [.time, .mgmt, .through]
  | .time => [.mgmt, .through, .time]
  | .mgmt => [.through, .time, .mgmt]

/-- Whether the port sends from this requester now. -/
def PortState.isSending (p : PortState) (r : Requester) : Bool := p.sending.any (·.source == r)

/-- Frames of a requester that wait to begin (R49). -/
def PathState.waitingFrames (p : PathState) (r : Requester) : Nat :=
  (match r with
    | .through => p.up.frames.length
    | .time => if p.queues.time.isSome then 1 else 0
    | .mgmt => p.queues.mgmt.length) - (if p.net.isSending r then 1 else 0)

/-- Pending: a frame waits to begin and the class is not MASKED (R49). -/
def PathState.isPending (p : PathState) (r : Requester) : Bool :=
  p.arb.classOf r != .masked && decide (0 < p.waitingFrames r)

/-- A fresh snapshot: every requester of the class that is pending (R50 step 1). -/
def PathState.freshSnapshot (p : PathState) (c : ArbClass) : Snapshot :=
  let m := fun r => p.arb.classOf r == c && p.isPending r
  ⟨m .through, m .time, m .mgmt⟩

/-- Members in order: those not pending are removed as skips, the first pending one is served (R50 step 2). -/
def scanMembers (pending : Requester → Bool) :
    List Requester → Snapshot → Nat → Option Requester × Snapshot × Nat
  | [], snap, skips => (none, snap, skips)
  | r :: rest, snap, skips =>
    if snap.has r then
      if pending r then (some r, snap.remove r, skips)
      else scanMembers pending rest (snap.remove r) (skips + 1)
    else scanMembers pending rest snap skips

/-- An HP turn (R50). -/
def PathState.hpTurn (p : PathState) : Option Requester × Arbiter :=
  let snap := if p.arb.hpSnap.isEmpty then p.freshSnapshot .hp else p.arb.hpSnap
  let r := scanMembers p.isPending (cyclicAfter p.arb.hpPointer) snap 0
  (r.1, { p.arb with
    hpSnap := r.2.1
    hpPointer := r.1.getD p.arb.hpPointer
    skips := bumpBy r.2.2 p.arb.skips
    turn := if r.2.1.isEmpty then .lp else .hp })

/-- An LP turn (R50). -/
def PathState.lpTurn (p : PathState) : Option Requester × Arbiter :=
  let snap := if p.arb.lpSnap.isEmpty then p.freshSnapshot .lp else p.arb.lpSnap
  let r := scanMembers p.isPending (cyclicAfter p.arb.lpPointer) snap 0
  (r.1, { p.arb with
    lpSnap := r.2.1
    lpPointer := r.1.getD p.arb.lpPointer
    skips := bumpBy r.2.2 p.arb.skips
    turn := .hp })

/-- Turns until a frame is served; at most two of each class are needed (R50). -/
def PathState.takeTurns : Nat → PathState → Option Requester × PathState
  | 0, p => (none, p)
  | n + 1, p =>
    let t := match p.arb.turn with
      | .hp => p.hpTurn
      | .lp => p.lpTurn
    let q := { p with arb := t.2 }
    match t.1 with
    | some r => (some r, q)
    | none => takeTurns n q

/-! ## What begins to leave a network-side port -/

/-- The head of the upstream buffer begins: a marked Probe leaves with its residence added (R43, R62). -/
def PathState.beginThrough (i : Instant) (p : PathState) : PathState :=
  match p.up.frames with
  | [] => p
  | f :: _ =>
    match f.mark, frameScx f.bytes with
    | true, some m =>
      let c := addCorrection m.correction (residence i p.net f.stamp)
      { p with
        net := { p.net with sending := some ⟨.through, withCorrection f.bytes c.1⟩ }
        correction := countSaturation c.2
          { p.correction with probesCorrected := bump p.correction.probesCorrected } }
    | _, _ => { p with net := { p.net with sending := some ⟨.through, f.bytes⟩ } }

/-- The departure time of a Probe goes to the matching record without one, or is discarded (R97). -/
def Measure.departed (m : Measure) (sequence : Nat) (time : Int) : Measure :=
  match m.record with
  | some r =>
    if r.departure = none ∧ r.sequence = sequence then { m with record := some { r with departure := some time } }
    else m
  | none => m

/-- The queued Probe begins (R45, R97). -/
def PathState.beginTime (i : Instant) (p : PathState) : PathState :=
  match p.queues.time with
  | none => p
  | some q =>
    { p with
      net := { p.net with sending := some ⟨.time, q.bytes⟩ }
      measure := p.measure.departed q.sequence (egressTime i p.net) }

/-- The head of the MGMT queue begins. -/
def PathState.beginMgmt (p : PathState) : PathState :=
  match p.queues.mgmt with
  | [] => p
  | f :: _ => { p with net := { p.net with sending := some ⟨.mgmt, f⟩ } }

def Arbiter.countServed (a : Arbiter) : Requester → Arbiter
  | .through => { a with throughServed := bump a.throughServed }
  | .time => { a with timeServed := bump a.timeServed }
  | .mgmt => { a with mgmtServed := bump a.mgmtServed }

/-- The head frame of a requester begins transmission, and the requester is counted as served (R50). -/
def PathState.serve (i : Instant) (r : Requester) (p : PathState) : PathState :=
  let q := { p with arb := p.arb.countServed r }
  match r with
  | .through => q.beginThrough i
  | .time => q.beginTime i
  | .mgmt => q.beginMgmt

/-- Whether any requester is pending. -/
def PathState.anyPending (p : PathState) : Bool :=
  p.isPending .through || p.isPending .time || p.isPending .mgmt

/-- A decision point of the arbiter (R50). -/
def PathState.decision (i : Instant) (p : PathState) : PathState :=
  if p.anyPending then
    match p.takeTurns 4 with
    | (some r, q) => q.serve i r
    | (none, q) => q
  else { p with arb := { p.arb with idle := bump p.arb.idle } }

/-- Whether the network-side port is UP and idle. -/
def PortState.isIdle (p : PortState) : Bool := p.up && p.sending.isNone

/-- A decision point is made when a requester has become pending while the port is idle (R49). -/
def PathState.becamePending (i : Instant) (r : Requester) (p : PathState) : PathState :=
  if p.net.isIdle && p.isPending r then p.decision i else p

/-- A Probe is offered to the TIME queue; the flag says whether it was queued (R45). The record for it is made by
the measurement unit before the arbiter is told. -/
def PathState.acceptsProbe (p : PathState) : Bool := p.net.up && p.queues.time.isNone

/-- A reply or notice is offered to the MGMT queue; the flag says whether it was dropped for a full queue (R46). -/
def PathState.offerMgmt (i : Instant) (frame : List Byte) (p : PathState) : PathState × Bool :=
  if p.net.up then
    if p.queues.mgmt.length < mgmtDepth then
      (({ p with queues := { p.queues with mgmt := p.queues.mgmt ++ [frame] } } : PathState).becamePending i .mgmt, false)
    else ({ p with queues := { p.queues with mgmtDrops := bump p.queues.mgmtDrops } }, true)
  else ({ p with queues := { p.queues with linkDiscards := bump p.queues.linkDiscards } }, false)

/-- The last byte of the frame on the wire of a network-side port has left (R43, R45, R46). -/
def PathState.sentNet (source : Requester) (p : PathState) : PathState :=
  let q := { p with net := { p.net with sending := none, transmitted := bump p.net.transmitted } }
  match source with
  | .through => { q with up := q.up.dropHead }
  | .time => { q with queues := { q.queues with time := none, timeSent := bump q.queues.timeSent } }
  | .mgmt => { q with queues := { q.queues with mgmt := q.queues.mgmt.tail, mgmtSent := bump q.queues.mgmtSent } }

/-- The arbiter at link loss (R51). -/
def Arbiter.linkLoss (a : Arbiter) : Arbiter := { a with hpSnap := .none, lpSnap := .none, turn := .hp }

end Sys2Proof.Machine
end

