-- ==== Sys2Proof/Machine/Flags.lean ====
section
/-! DEFINITION. Event flags and the notice logic (R175 to R178). -/

namespace Sys2Proof.Machine

open Sys2Proof.Config

/-- Position of a flag in sets: its priority less 1 (R183). -/
def Event.bit : Event → Nat
  | .step => 0
  | .freerunEntered => 1
  | .holdoverEntered => 2
  | .lockGained => 3
  | .lockLost => 4
  | .sourceChanged => 5
  | .sourceLost => 6
  | .sourceTableFull => 7
  | .outlierLimit => 8
  | .delayAnomaly => 9
  | .probeLost => 10
  | .linkChange => 11
  | .throughDrop => 12
  | .detailUnmatched => 13
  | .residenceEvict => 14
  | .residenceOrphan => 15
  | .foreignTime => 16
  | .realign => 17
  | .tcWrap => 18
  | .captureReady => 19
  | .captureOverflow => 20
  | .flowBreach => 21
  | .flowSilent => 22
  | .mgmtDrop => 23

/-- The set holding one flag. -/
def Event.set (e : Event) : BitVec 24 := BitVec.ofNat 24 (2 ^ e.bit)

def Control.isSet (c : Control) (e : Event) : Bool := c.flags.getLsbD e.bit

/-- The priorities of a set of flags, in priority order. -/
def flagList (flags : BitVec 24) : List Nat :=
  ((List.range 24).filter fun i => flags.getLsbD i).map (· + 1)

/-- What a notice shows of the other blocks, and the instant it is made at. -/
structure NoticeView where
  servo    : ServoState
  selected : Option Ident
  instant  : Instant

/-- The control unit with what the paths hold: all that raising an event can change. -/
abbrev Bus := Control × PerPath PathState

/-- The frame of a notice (R177, chapter 12). -/
def noticeFrame (v : NoticeView) (c : Control) (dst : Station) : List Byte :=
  let fs := flagList c.flags
  sealFrame <|
    putBits 6 dst ++ putBits 6 c.station ++ beBytes 2 controlType ++
    [2, 0, 0, 0] ++ putNat 2 (24 + fs.length) ++ [0, 0] ++
    putNat 2 c.sequence ++ [BitVec.ofNat 8 v.servo.code, BitVec.ofNat 8 fs.length,
      (if v.selected.isSome then 1 else 0), 0, 0, 0] ++
    putBits 8 (v.selected.getD 0) ++ fs.map (BitVec.ofNat 8)

/-- One copy to the MGMT queue of a path named by the notice path; the flag gathers full queues. -/
def offerCopy (v : NoticeView) (frame : List Byte) (p : Path) (x : Bus × Bool) : Bus × Bool :=
  if x.1.1.noticePath.names p then
    let r := (x.1.2.get p).offerMgmt v.instant frame
    ((x.1.1, x.1.2.set p r.1), x.2 || r.2)
  else x

/-- A notice is made (R177 steps 1 to 6); the flag says whether a copy met a full queue. -/
def makeNotice (v : NoticeView) (x : Bus) : Bus × Bool :=
  match x.1.destination with
  | none => (x, false)
  | some dst =>
    let frame := noticeFrame v x.1 dst
    let y := offerCopy v frame .b (offerCopy v frame .a (x, false))
    let c := y.1.1
    (({ c with
        sequence := (c.sequence + 1) % 65536
        count := { c.count with notices := bump c.count.notices }
        timer := if 0 < c.holdoff then some (c.holdoff * unitsPerMs) else c.timer }, y.1.2), y.2)

/-- A flag becomes set; `due` is what the notice logic does when an unmasked one does (R175, R177). -/
def setFlag (due : Bus → Bus) (e : Event) (x : Bus) : Bus :=
  if x.1.isSet e then x
  else
    let y : Bus := ({ x.1 with flags := x.1.flags ||| e.set }, x.2)
    if x.1.destination.isNone || x.1.mask.getLsbD e.bit then y else due y

/-- A notice is due: it waits for the timer, waits for the end of the hold, or is made (R177, R178). -/
def noticeDue (make : Bus → Bus) (x : Bus) : Bus :=
  if x.1.timer.isSome then ({ x.1 with pendingMark := true }, x.2)
  else if x.1.hold then ({ x.1 with heldNotice := true }, x.2)
  else make x

/-- A notice is made, and the MGMT_DROP of a full queue is raised after it (R46, log 26). A notice made for that
MGMT_DROP can raise nothing more, since the flag is set. -/
def makeNoticeRaising (v : NoticeView) (x : Bus) : Bus :=
  let y := makeNotice v x
  if y.2 then setFlag (noticeDue fun z => (makeNotice v z).1) .mgmtDrop y.1 else y.1

/-- An event is raised at the control unit (R175). -/
def raiseOn (v : NoticeView) (e : Event) (x : Bus) : Bus :=
  setFlag (noticeDue (makeNoticeRaising v)) e x

/-! ## On the whole state -/

def State.instant (s : State) : Instant := ⟨s.now, s.correction.stepSum⟩

/-- The identity of the selected entry (items 510, 511). -/
def Sources.selectedEntry (q : Sources) : Option SourceEntry :=
  match q.selected with
  | none => none
  | some i => q.table[i]

def State.noticeView (s : State) : NoticeView :=
  ⟨s.servo.state, s.sources.selectedEntry.map (·.sender), s.instant⟩

/-- Put back what the control unit and the paths have become. -/
def State.withBus (s : State) (x : Bus) : State := { s with ctl := x.1, paths := x.2 }

/-- An event is raised (R175). -/
def State.raise (e : Event) (s : State) : State :=
  s.withBus (raiseOn s.noticeView e (s.ctl, s.paths))

/-- An event is raised when a condition holds. -/
def State.raiseIf (b : Bool) (e : Event) (s : State) : State := if b then s.raise e else s

/-- The hold ends: the notice that became due under it is made, with its contents taken now (R178). -/
def State.endHold (s : State) : State :=
  let c := { s.ctl with hold := false, heldNotice := false }
  if s.ctl.heldNotice then s.withBus (makeNoticeRaising s.noticeView (c, s.paths))
  else { s with ctl := c }

/-- A reply is offered to the MGMT queue of its port (R46, R171). -/
def State.offerReply (p : Path) (frame : List Byte) (s : State) : State :=
  let r := (s.path p).offerMgmt s.instant frame
  (s.modPath p fun _ => r.1).raiseIf r.2 .mgmtDrop

/-- The holdoff timer, when it has run out, ends (R177). -/
def State.endHoldoff (s : State) : State :=
  match s.ctl.timer with
  | some 0 =>
    let c := { s.ctl with timer := none, pendingMark := false }
    if s.ctl.pendingMark && c.destination.isSome && (c.flags &&& ~~~c.mask) != 0 then
      s.withBus (noticeDue (makeNoticeRaising s.noticeView) (c, s.paths))
    else { s with ctl := c }
  | _ => s

/-- HOLDOFF_END (R177): the notice holdoff timer ends. -/
def execHoldoffEnd (dt : Nat) (s : State) : Outcome := event dt State.endHoldoff s

end Sys2Proof.Machine
end

