-- ==== Sys2Proof/Machine/Labels.lean ====
section
/-! DEFINITION. The label unit: mode constants, jam instants, labels, and what realigns, house items and JAM do to
the label state of a generator (R130 to R142). -/

namespace Sys2Proof.Machine

open Sys2Proof.Config

abbrev nsPerDay : Int := 86400 * 1000000000

/-- Frame base of a rate: ceil(N / D) (R112, R130). -/
def GenConfig.frameBase (c : GenConfig) : Nat := (c.n + c.d - 1) / c.d

/-- Mode constants (R130); none for label mode OFF. -/
def GenConfig.labelMath (c : GenConfig) : Option LabelMath :=
  match c.labelMode with
  | .off => none
  | .ndf => some ⟨c.frameBase, 0, 0, 0, c.frameBase * 86400⟩
  | .df => if c.n = 30000 then some ⟨30, 2, 1798, 17982, 2589408⟩ else some ⟨60, 4, 3596, 35964, 5178816⟩

/-- The displacement of jam instants from whole days (R131). -/
def jamDisplacement (utc zone : Int) (jam : Nat) : Int := (jam + utc - zone) * nsPerSec

/-- The most recent jam instant at or before u (R131). -/
def jamAtOrBefore (c u : Int) : Int := (u - c) / nsPerDay * nsPerDay + c

/-- The jam instant following u (R131). -/
def jamAfter (c u : Int) : Int := jamAtOrBefore c u + nsPerDay

def LabelState.displacement (l : LabelState) : Int := jamDisplacement l.utc l.zone l.jam

/-- The next jam from edge i (R131). -/
def LabelState.nextJamFrom (l : LabelState) (c : GenConfig) (i : Int) : Option Int :=
  c.firstAtOrAfter (jamAfter l.displacement (c.edgeAt i))

/-- The label of a frame count in a given base (R133). -/
def labelFields (base n : Nat) (drop : Bool) : Label :=
  ⟨n / (3600 * base), n / (60 * base) % 60, n / base % 60, n % base, drop⟩

/-- What drop-frame counting adds to the frame count (R134). -/
def LabelMath.adjustment (m : LabelMath) (f : Nat) : Nat :=
  let tens := f / m.t10
  let x := f % m.t10
  if x < m.drop then 9 * m.drop * tens else 9 * m.drop * tens + m.drop * ((x - m.drop) / m.t1)

/-- The label of frame count F (R133, R134). -/
def LabelMath.label (m : LabelMath) (f : Nat) : Label :=
  if m.drop = 0 then labelFields m.base f false else labelFields m.base (f + m.adjustment f) true

/-- The frame count of edge k: 0 at the next jam, else counted from the jam edge (R132). -/
def LabelState.countOf (l : LabelState) (jamEdge k : Int) : Nat :=
  if l.nextJam = some k then 0 else ((k - jamEdge) % l.math.perDay).toNat

/-- A labelled generator hands edge k to the label unit (R132); the flag says whether the count wrapped. -/
def Generator.labelEdge (g : Generator) (k : Int) : Generator × Bool :=
  match g.label with
  | none => (g, false)
  | some l =>
    match l.jamEdge with
    | none => (g, false)
    | some j =>
      let f := l.countOf j k
      let shown : Option LastLabel := some ⟨k, f, l.math.label f⟩
      if l.nextJam = some k then
        ({ g with
            label := some { l with jamEdge := some k, nextJam := l.nextJamFrom g.config k, last := shown }
            jams := bump g.jams }, false)
      else if f = 0 ∧ k ≠ j then
        ({ g with label := some { l with last := shown }, wraps := bump g.wraps }, true)
      else ({ g with label := some { l with last := shown } }, false)

/-- Jams placed from an instant t under the house items (R135, R137). -/
def LabelState.placed (c : GenConfig) (h : HouseItems) (m : LabelMath) (last : Option LastLabel) (t : Int) :
    LabelState :=
  let prev := jamAtOrBefore (jamDisplacement h.utc h.zone h.jam) t
  { math := m
    jamEdge := c.firstAtOrAfter prev
    nextJam := c.firstAtOrAfter (prev + nsPerDay)
    utc := h.utc
    zone := h.zone
    jam := h.jam
    last := last }

/-- What a realign notice makes of the label state (R135, R139). -/
def Generator.labelRealigned (h : HouseItems) (t : Int) (g : Generator) : Generator :=
  match g.condition, g.config.labelMath with
  | .running, some m =>
    { g with label := some (LabelState.placed g.config h m (g.label.bind (·.last)) t) }
  | _, _ => { g with label := none }

/-- A change of the house items (R136). -/
def Generator.houseChanged (h : HouseItems) (g : Generator) : Generator :=
  match g.condition, g.label, g.next with
  | .running, some l, some k =>
    let l' := { l with utc := h.utc, zone := h.zone, jam := h.jam }
    { g with label := some { l' with nextJam := l'.nextJamFrom g.config (k - 1) } }
  | _, _, _ => g

/-- The JAM command at one generator (R137). -/
def Generator.jammed (h : HouseItems) (t : Int) (g : Generator) : Generator :=
  match g.condition, g.label with
  | .running, some l => { g with label := some (LabelState.placed g.config h l.math l.last t) }
  | _, _ => g

/-- The label unit is told of a change of the house items (R89, R90, R136). -/
def State.tellLabels (s : State) : State :=
  { s with gens := mapRows s.gens (·.houseChanged s.sources.house) }

/-- The generators named in a mask, each changed by f. -/
def mapMask (mask : BitVec 16) (gens : Vector Generator 16) (f : Generator → Generator) : Vector Generator 16 :=
  Vector.ofFn fun i : Fin 16 => if mask.getLsbD i then f gens[i] else gens[i]

/-- JAM (R137). -/
def State.jamCommand (mask : BitVec 16) (s : State) : State :=
  { s with gens := mapMask mask s.gens (·.jammed s.sources.house (wholeNs s.servo.time)) }

end Sys2Proof.Machine
end

