-- ==== Sys2Proof/Machine/Lines.lean ====
section
/-! DEFINITION. The line unit: output line modes, pulses, muting, input captures and the capture FIFO
(R143 to R157). -/

namespace Sys2Proof.Machine

open Sys2Proof.Config

/-- The lock indication, derived from servo state and mode (R15). -/
def Servo.lockIndication (v : Servo) : Bool :=
  match v.state with
  | .locked => true
  | .holdover => v.lenient
  | _ => false

/-- The level a line drives: high is true; low while the part is in reset (R144, R180). -/
def State.lineLevel (s : State) (i : Fin 8) : Bool :=
  let l := s.lines.outputs[i]
  !s.inReset && (xor (l.state == .active) l.activeLow)

def Level.opposite : Level → Level
  | .active => .inactive
  | .inactive => .active

/-- The effective width in nanoseconds for a gap quotient q (R146). -/
def OutputLine.effectiveWidth (l : OutputLine) (q : Nat) : Nat := clampNat 16 (q * l.divisor - 16) l.width

/-- The line is made ACTIVE for `ns`; a running pulse is lengthened, never shortened, and whether lengthened or not it is
a pulse of PULSE or SQUARE from then on, with no state to return to (R144, R150, log 29). -/
def OutputLine.activate (l : OutputLine) (ns : Nat) : OutputLine :=
  { l with
    state := .active
    pulseEnd := some (max (l.pulseEnd.getD 0) (ns * unitsPerNs))
    before := none }

/-- A selected edge fires an armed one-shot (R148). -/
def OutputLine.fire (l : OutputLine) (q : Nat) : OutputLine :=
  { l with
    state := l.state.opposite
    pulseEnd := some (l.effectiveWidth q * unitsPerNs)
    oneShot := some .done
    mode := .idle
    before := some l.state }

/-- A selected edge, by mode, mute and lock (R146 to R151). -/
def OutputLine.selectedEdge (lock : Bool) (q : Nat) (l : OutputLine) : OutputLine :=
  if l.muted && !lock then l
  else
    match l.mode with
    | .pulse => l.activate (l.effectiveWidth q)
    | .square => l.activate (q * l.divisor / 2)
    | .oneshot => if l.oneShot = some .armed ∧ l.pulseEnd = none then l.fire q else l
    | _ => l

/-- Edge k of generator g reaches the line; it is selected when k mod M = m (R145). -/
def OutputLine.takeEdge (lock : Bool) (g : Fin 16) (q : Nat) (k : Int) (l : OutputLine) : OutputLine :=
  if l.cadence = g ∧ k % l.divisor = l.phase then l.selectedEdge lock q else l

/-- The pulse end has run out (R144). -/
def OutputLine.endPulse (l : OutputLine) : OutputLine :=
  match l.pulseEnd with
  | some 0 =>
    { l with
      pulseEnd := none
      before := none
      state :=
        match l.mode, l.before with
        | .static, _ => l.level
        | .idle, some b => b
        | .oneshot, some b => b
        | _, _ => .inactive }
  | _ => l

/-- The state a line takes at the write of a mode, when it is not driving a pulse (R146 to R149). -/
def OutputLine.restingState (l : OutputLine) : Level :=
  match l.mode with
  | .static => l.level
  | .pulse => .inactive
  | .square => .inactive
  | _ => l.state

/-- An accepted configured part takes effect (R143, R146 to R150). -/
def OutputLine.settle (l : OutputLine) : OutputLine :=
  { l with
    state := if l.pulseEnd.isSome then l.state else l.restingState
    oneShot := if l.mode = .oneshot then some .armed else none }

/-- A checked write of an output row; none is BAD_VALUE (R143). -/
def OutputLine.write (w : OutputWrite) (l : OutputLine) : Option OutputLine :=
  match readLineMode w.mode, readPolarity w.polarity, readYesNo w.mute, readLevel w.level with
  | some mode, some low, some mute, some level =>
    if h : w.cadence.toNat < 16 then
      if w.divisor = 0 then none
      else
        some (OutputLine.settle { l with
          mode := mode
          cadence := ⟨w.cadence.toNat, h⟩
          divisor := w.divisor.toNat
          phase := min w.phase.toNat (w.divisor.toNat - 1)
          width := w.width.toNat
          activeLow := low
          muted := mute
          level := level })
    else none
  | _, _, _, _ => none

/-- A checked write of an input row; none is BAD_VALUE (chapter 09). The bind is 0 to 15, or none. -/
def InputLine.write (w : InputWrite) (l : InputLine) : Option InputLine :=
  match readEdgeSelect w.edge with
  | none => none
  | some e =>
    if w.bind = 0xFF then some { l with select := e, bind := none }
    else if h : w.bind.toNat < 16 then some { l with select := e, bind := some ⟨w.bind.toNat, h⟩ }
    else none

/-- LINE_SET and LINE_CLEAR at one line (R149). -/
def OutputLine.setStatic (v : Level) (l : OutputLine) : OutputLine :=
  if l.mode = .static then
    { l with level := v, state := if l.pulseEnd.isSome then l.state else v }
  else l

def State.setLines (mask : BitVec 8) (v : Level) (s : State) : State :=
  s.modLines fun u =>
    { u with outputs := Vector.ofFn fun i : Fin 8 =>
        if mask.getLsbD i then u.outputs[i].setStatic v else u.outputs[i] }

/-- PULSE_END at one line (R144). -/
def State.endPulse (i : Fin 8) (s : State) : State :=
  s.modLines fun u => { u with outputs := modifyRow u.outputs i OutputLine.endPulse }

/-! ## Captures (R153 to R156) -/

def EdgeSelect.picks : EdgeSelect → EdgeDir → Bool
  | .both, _ => true
  | .rising, .rising => true
  | .falling, .falling => true
  | _, _ => false

/-- The phase of a capture: present when the row is bound to a generator that answers (R153, R154). -/
def State.capturePhase (s : State) (bind : Option (Fin 16)) : Option Int :=
  match bind with
  | none => none
  | some g =>
    let gen := s.gens[g]
    if gen.condition = .disabled then none
    else
      let u : Int := wholeNs s.servo.time
      (gen.config.around u).map fun e => phaseOf u e.1 e.2

/-- A record is offered to the capture FIFO (R155). -/
def State.offerCapture (c : Capture) (s : State) : State :=
  if s.lines.fifo.length < captureDepth then
    (s.modLines fun u => { u with fifo := u.fifo ++ [c] }).raiseIf s.lines.fifo.isEmpty .captureReady
  else
    (s.modLines fun u => { u with overflow := min (u.overflow + 1) overflowMax }).raise .captureOverflow

/-- The pin takes its new level. -/
def State.setInput (i : Fin 4) (e : EdgeDir) (s : State) : State :=
  s.modLines fun u => { u with inputs := modifyRow u.inputs i fun l => { l with high := e == .rising } }

/-- A transition of an input line (R153), taken without a test of the pin's present level (log 47). -/
def State.inputTransition (i : Fin 4) (e : EdgeDir) (s : State) : State :=
  let row := s.lines.inputs[i]
  let t := s.setInput i e
  if row.select.picks e then
    t.offerCapture ⟨i, e, s.servo.time, s.servo.state, s.capturePhase row.bind⟩
  else t

/-- PULSE_END (R144). -/
def execPulseEnd (dt : Nat) (line : Fin 8) (s : State) : Outcome := event dt (State.endPulse line) s

/-- INPUT_TRANSITION (R153). In reset the pin still takes its level, and nothing is recorded (R180). -/
def execInputTransition (dt : Nat) (line : Fin 4) (edge : EdgeDir) (s : State) : Outcome :=
  if s.inReset then .next (s.setInput line edge) else event dt (State.inputTransition line edge) s

end Sys2Proof.Machine
end

