-- ==== Sys2Proof/Machine/Cadence.lean ====
section
/-! DEFINITION. The cadence engine: emission and advance of edges, realign, row writes, the REALIGN command
(R111 to R129). -/

namespace Sys2Proof.Machine

open Sys2Proof.Config

/-- The generator emits its edge (k, T) and advances, or becomes EXHAUSTED at the largest index (R117, R118). -/
def Generator.advance (g : Generator) (k t : Int) (r : Nat) : Generator :=
  let g' := { g with last := some ⟨k, t⟩ }
  if k = indexMax then { g' with condition := .exhausted, instant := none, remainder := none }
  else
    let sum := r + g.gapRemainder
    if g.config.n ≤ sum then
      { g' with next := some (k + 1), instant := some (t + g.gap + 1), remainder := some (sum - g.config.n) }
    else { g' with next := some (k + 1), instant := some (t + g.gap), remainder := some sum }

/-- The next edge of a RUNNING generator: index, instant, remainder. -/
def Generator.nextEdge (g : Generator) : Option (Int × Int × Nat) :=
  match g.condition, g.next, g.instant, g.remainder with
  | .running, some k, some t, some r => some (k, t, r)
  | _, _, _, _ => none

/-- A generator emits its next edge to the line unit and the label unit and advances (R117). -/
def State.emitEdge (g : Fin 16) (s : State) : State :=
  let gen := s.gens[g]
  match gen.nextEdge with
  | none => s
  | some (k, t, r) =>
    let lab := gen.labelEdge k
    let lock := s.servo.lockIndication
    let u := { s.lines with outputs := mapRows s.lines.outputs (·.takeEdge lock g gen.gap k) }
    ({ s with lines := u, gens := s.gens.set g (lab.1.advance k t r) } : State).raiseIf lab.2 .tcWrap

/-- The timescale has reached the next edge instant (R117); an overdue edge is emitted too (log 3). -/
def State.edgeReached (g : Fin 16) (s : State) : State :=
  match (s.gens[g]).nextEdge with
  | none => s
  | some (_, t, _) => if t ≤ wholeNs s.servo.time then s.emitEdge g else s

/-- GENERATOR_EDGE (R117). -/
def execGeneratorEdge (dt : Nat) (gen : Fin 16) (s : State) : Outcome := event dt (State.edgeReached gen) s

/-! ## Realign (R120 to R125) -/

/-- The starting index of a realign at t, raised by 1 when that very edge was the last emitted at this instant
(R120 step 2, R121, log 40). -/
def Generator.realignIndex (g : Generator) (t : Int) : Int :=
  let k := g.config.startIndex t
  match g.last with
  | none => k
  | some e => if e.index = k ∧ e.instant = g.config.edgeAt k ∧ e.instant = t then k + 1 else k

/-- The running state after a realign at t (R120 steps 1 to 4, R118). -/
def Generator.placeEdge (g : Generator) (t : Int) : Generator :=
  let k := g.realignIndex t
  let g' := { g with gap := g.config.gap, gapRemainder := g.config.gapRemainder }
  if indexMax < k then { g' with condition := .exhausted, next := some indexMax, instant := none, remainder := none }
  else
    { g' with
      condition := .running
      next := some k
      instant := some (g.config.edgeAt k)
      remainder := some (g.config.remainderAt k) }

/-- A realign with its count, cause and realign notice to the label unit (R120, R122, R124, R135). -/
def Generator.realigned (h : HouseItems) (cause : RealignCause) (t : Int) (g : Generator) : Generator :=
  ({ g.placeEdge t with realigns := bump g.realigns, cause := cause } : Generator).labelRealigned h t

/-- Whether a realign of this cause raises REALIGN (R122). -/
def RealignCause.raises : RealignCause → Bool
  | .step => true
  | .setTime => true
  | _ => false

/-- An edge of the generator that has fallen due on the present timescale value, and that a realign there under the
part `c` would not emit itself (R120 step 5), its first edge lying elsewhere or being raised past it (R121), is emitted
before that realign, so that the edge and the realign have the same outcome in both orders (R113, R120, R121, log 50). -/
def State.emitDue (c : GenConfig) (g : Fin 16) (s : State) : State :=
  let t : Int := wholeNs s.servo.time
  match (s.gens[g]).nextEdge with
  | none => s
  | some (k, u, _) =>
    if u = t ∧ ¬ (({ s.gens[g] with config := c } : Generator).realignIndex t = k ∧ c.edgeAt k = t) then s.emitEdge g else s

/-- The due edges of all enabled generators are emitted before a step to `t` that leaves the timescale, in whole
nanoseconds, at the value it has (R121); a step that moves it emits none of them (R123). -/
def State.emitStanding (t : TimeValue) (s : State) : State :=
  if t.sec = s.servo.time.sec ∧ t.ns = s.servo.time.ns then
    (List.finRange 16).foldl
      (fun u g => if (u.gens[g]).config.enabled then u.emitDue (u.gens[g]).config g else u) s
  else s

/-- An enabled generator is realigned at the present timescale value; an edge on that value is emitted at once
(R120 step 5). A disabled row is left as it is (R122). -/
def State.realignGen (cause : RealignCause) (g : Fin 16) (s : State) : State :=
  if (s.gens[g]).config.enabled then
    let t : Int := wholeNs s.servo.time
    let s1 := (s.modGen g (·.realigned s.sources.house cause t)).raiseIf cause.raises .realign
    if (s1.gens[g]).nextEdge.any (fun e => e.2.1 == t) then s1.emitEdge g else s1
  else s

/-- Every enabled generator is realigned, in order of number (R122). -/
def State.realignAll (cause : RealignCause) (s : State) : State :=
  (List.finRange 16).foldl (fun t g => t.realignGen cause g) s

/-- REALIGN (R125), with an edge due at that instant (R121). -/
def State.realignMask (mask : BitVec 16) (s : State) : State :=
  (List.finRange 16).foldl (fun t (g : Fin 16) =>
    if mask.getLsbD g.val && (t.gens[g]).config.enabled then (t.emitDue (t.gens[g]).config g).realignGen .command g
    else t) s

/-! ## Row writes (R112 to R114) -/

/-- The configured part of a write that passes the checks of R112; none is BAD_VALUE. -/
def checkCadence (w : CadenceWrite) : Option GenConfig :=
  match readYesNo w.enabled, readLabelMode w.labelMode with
  | some en, some mode =>
    let n := w.n.toNat
    let d := w.d.toNat
    let phi := w.phi.toInt
    let c : GenConfig := ⟨en, n, d, phi, mode⟩
    if 1 ≤ n ∧ n ≤ 1000000 ∧ 1 ≤ d ∧ -999999999 ≤ phi ∧ phi ≤ 999999999 ∧
        1000 * n ≤ d * nsPerSec ∧ d * nsPerSec ≤ 4294967295 * n ∧
        (mode = .df → (n = 30000 ∨ n = 60000) ∧ d = 1001) ∧
        (mode = .ndf → c.frameBase ≤ 60)
    then some c else none
  | _, _ => none

/-- A row is written disabled (R114, R139); a row already DISABLED only stores its configured part. -/
def Generator.disable (c : GenConfig) (g : Generator) : Generator :=
  { g with
    config := c
    condition := .disabled
    next := none
    instant := none
    remainder := none
    last := none
    label := none }

/-- An accepted row write (R113, R114). An edge of the old configured part whose instant has been reached is emitted
(R113, R121, log 50). -/
def State.storeCadence (g : Fin 16) (c : GenConfig) (s : State) : State :=
  if c.enabled then ((s.emitDue c g).modGen g fun r => { r with config := c }).realignGen .write g
  else s.modGen g (·.disable c)

end Sys2Proof.Machine
end

