-- ==== Sys2Proof/Machine/Correction.lean ====
section
/-! DEFINITION. The correction unit at the equipment-side ports, and the residence table (R59 to R72). -/

namespace Sys2Proof.Machine

open Sys2Proof.Config

def State.countCorrection (s : State) (p : Path) (f : CorrectionCounters → CorrectionCounters) : State :=
  s.modPath p fun q => { q with correction := f q.correction }

def State.modResidence (s : State) (f : Vector (Option ResidenceEntry) 32 → Vector (Option ResidenceEntry) 32) :
    State :=
  s.modCorrection fun c => { c with rows := f c.rows }

/-- The key of the residence table: path, sender identity, domain, sequence (R63). -/
def ResidenceEntry.hasKey (e : ResidenceEntry) (p : Path) (m : Scx) : Bool :=
  e.path == p && e.sender == m.sender && e.domain == m.domain && e.sequence == m.sequence

def Correction.findKey (c : Correction) (p : Path) (m : Scx) : Option (Fin 32) :=
  findRow c.rows (·.hasKey p m)

/-- The row whose entry is the oldest in age order, if any is in use (R63, R65). -/
def Correction.oldest (c : Correction) : Option (Fin 32) :=
  (List.finRange 32).foldl (fun best i =>
    match c.rows[i], best with
    | none, _ => best
    | some _, none => some i
    | some e, some j =>
      match c.rows[j] with
      | none => some i
      | some f => if e.place < f.place then some i else best) none

/-- Put a new or replaced entry in a row as the newest in age order (R63, R64). -/
def Correction.put (c : Correction) (i : Fin 32) (p : Path) (m : Scx) (res : Int) (t : TimeValue) : Correction :=
  { c with
    rows := c.rows.set i (some ⟨p, m.sender, m.domain, m.sequence, res, t, 0, c.nextPlace⟩)
    nextPlace := c.nextPlace + 1 }

def Correction.clear (c : Correction) (i : Fin 32) : Correction := { c with rows := c.rows.set i none }

/-- A marked paired Beacon of path p leaves with this residence (R63, R64, R65). -/
def State.recordResidence (p : Path) (m : Scx) (res : Int) (s : State) : State :=
  let t := s.servo.time
  match s.correction.findKey p m with
  | some i =>
    (s.modCorrection (·.put i p m res t)).countCorrection p fun c => { c with duplicates := bump c.duplicates }
  | none =>
    match freeRow s.correction.rows with
    | some i =>
      (s.modCorrection (·.put i p m res t)).countCorrection p fun c => { c with created := bump c.created }
    | none =>
      match s.correction.oldest with
      | none => s
      | some i =>
        let evicted := (s.correction.rows[i]).elim p (·.path)
        (((s.modCorrection (·.put i p m res t)).countCorrection evicted
            fun c => { c with evictions := bump c.evictions }).countCorrection p
          fun c => { c with created := bump c.created }).raise .residenceEvict

/-- Bytes begin to leave the equipment-side port of a path. -/
def State.sendDown (p : Path) (bytes : List Byte) (s : State) : State :=
  s.modPath p fun q => { q with eq := { q.eq with sending := some ⟨.through, bytes⟩ } }

/-- A marked message leaves the equipment-side port with an amount added to its correction (R60, R61, R67, R68). -/
def State.sendAmended (p : Path) (bytes : List Byte) (m : Scx) (add : Int)
    (f : CorrectionCounters → CorrectionCounters) (s : State) : State :=
  let c := addCorrection m.correction add
  (s.sendDown p (withCorrection bytes c.1)).countCorrection p fun k => countSaturation c.2 (f k)

/-- The head of a downstream buffer reaches its egress start marker (R43, R61, R63, R67, R68). -/
def State.beginDown (p : Path) (s : State) : State :=
  match (s.path p).down.frames with
  | [] => s
  | f :: _ =>
    match f.mark, frameScx f.bytes with
    | true, some m =>
      let res := residence s.instant (s.path p).eq f.stamp
      match m.body with
      | .beacon _ =>
        if m.paired then (s.sendDown p f.bytes).recordResidence p m res
        else s.sendAmended p f.bytes m res fun c => { c with singleCorrected := bump c.singleCorrected }
      | .detail _ =>
        match s.correction.findKey p m with
        | some i =>
          let held := (s.correction.rows[i]).elim 0 (·.residence)
          (s.modCorrection (·.clear i)).sendAmended p f.bytes m (held + res) fun c =>
            { c with matched := bump c.matched }
        | none =>
          (s.sendAmended p f.bytes m res fun c => { c with unmatched := bump c.unmatched }).raise .detailUnmatched
      | _ => s.sendDown p f.bytes
    | _, _ => s.sendDown p f.bytes

/-- A transmission begins when the equipment-side port is UP, is not transmitting and a frame is held (R43). -/
def State.driveDown (p : Path) (s : State) : State :=
  if (s.path p).eq.isIdle then s.beginDown p else s

/-- A decision point of the arbiter of a path, when its port is UP and not transmitting (R49, R50). -/
def State.decide (p : Path) (s : State) : State :=
  s.modPath p fun q => if q.net.isIdle then q.decision s.instant else q

/-! ## Expiry and link loss (R66, R69) -/

/-- The entry of a row expires when its age has reached the residence lifetime (R66). -/
def State.expireResidence (i : Fin 32) (s : State) : State :=
  match s.correction.rows[i] with
  | none => s
  | some e =>
    if s.correction.lifetime * unitsPerMs ≤ e.age then
      ((s.modCorrection (·.clear i)).countCorrection e.path fun c => { c with orphans := bump c.orphans }).raise
        .residenceOrphan
    else s

/-- Every entry of a path is removed and counted as an orphan, without an event (R69). -/
def State.removeResidences (p : Path) (s : State) : State :=
  let n := (List.finRange 32).countP fun i => (s.correction.rows[i]).any (·.path == p)
  (s.modResidence (mapRows · fun e => e.filter (·.path != p))).countCorrection p fun c =>
    { c with orphans := bumpBy n c.orphans }

/-- RESIDENCE_EXPIRY (R66). -/
def execResidenceExpiry (dt : Nat) (row : Fin 32) (s : State) : Outcome :=
  event dt (State.expireResidence row) s

/-- A written residence lifetime acts at once on every held entry (R66). -/
def State.setLifetime (v : Nat) (s : State) : State :=
  (List.finRange 32).foldl (fun t i => t.expireResidence i)
    (s.modCorrection fun c => { c with lifetime := clampNat 1 1000 v })

/-- The step sum changes by the amount the timescale moved; beyond signed 64 bits it is a free value (R59, log 17). -/
def State.addStepSum (moved : Int) (s : State) : State :=
  let sum := s.correction.stepSum + moved
  if indexMin ≤ sum ∧ sum ≤ indexMax then s.modCorrection fun c => { c with stepSum := sum }
  else
    { s with
      correction := { s.correction with stepSum := (stepSumBeyond s.free sum).toInt }
      free := s.free + 1 }

end Sys2Proof.Machine
end

