-- ==== Sys2Proof/Machine/Servo.lean ====
section
/-! DEFINITION. The servo: steps of the timescale, offsets through the quiet, step or outlier, PI and window
tests, changes of selection, holdover and its commands (R3 to R19). -/

namespace Sys2Proof.Machine

open Sys2Proof.Config

def State.countServo (s : State) (f : ServoCounters → ServoCounters) : State :=
  s.modServo fun v => { v with count := f v.count }

/-- Change the servo, then raise LOCK_GAINED or LOCK_LOST when the lock indication changed (R15, R16). -/
def State.changeServo (f : Servo → Servo) (s : State) : State :=
  let t := s.modServo f
  let was := s.servo.lockIndication
  let is := t.servo.lockIndication
  (t.raiseIf (!was && is) .lockGained).raiseIf (was && !is) .lockLost

/-- The quiet period of the quiet period code (R5). -/
def quietPeriod (code : Nat) : Nat := 2 ^ (code + 1)

/-- The window of a stage in nanoseconds (R10). -/
def window (stage : Nat) : Nat := 65536 / 4 ^ stage

def Servo.effectiveFinal (v : Servo) : Nat := max v.startStage v.finalStage

/-! ## Steps (R3, R7, R59, R105) -/

/-- The timescale moved by whole nanoseconds, sub-nanoseconds kept, clamped at both ends (R3). -/
def stepTime (t : TimeValue) (by_ : Int) : TimeValue :=
  let n : Int := wholeNs t + by_
  if n < 0 then ⟨0, 0, 0⟩
  else if (secondsEnd * nsPerSec : Nat) ≤ n then ofUnits maxUnits
  else ⟨n.toNat / nsPerSec, n.toNat % nsPerSec, t.sub⟩

/-- What the measurement unit does at a step (R105). -/
def SourceEntry.stepped (e : SourceEntry) : SourceEntry := { e with leg := none, pending := none }

def PathState.clearRecord (p : PathState) : PathState := { p with measure := { p.measure with record := none } }

def State.measurementStep (s : State) : State :=
  { s with
    sources := { s.sources with table := mapEntries s.sources.table SourceEntry.stepped }
    paths := s.paths.map PathState.clearRecord }

/-- The timescale takes a new value at once, and the step is reported: STEP, step sum, measurement unit, realign
of every enabled generator (R3, R59). Where the value in whole nanoseconds is the one it had, the edges due on it are
emitted first (R121, log 50); else R123 holds. -/
def State.moveTime (cause : RealignCause) (t : TimeValue) (s : State) : State :=
  let moved : Int := (units t : Int) - units s.servo.time
  ((((s.emitStanding t).modServo fun v => { v with time := t }).addStepSum moved).raise .step).measurementStep.realignAll cause

/-- Load the quiet count (R5). -/
def Servo.loadQuiet (v : Servo) : Servo := { v with quiet := quietPeriod v.quietCode }

/-- The servo steps on an offset (R7). -/
def State.servoStep (e : Int) (s : State) : State :=
  ((s.moveTime .step (stepTime s.servo.time (-e))).modServo fun v =>
    ({ v with stage := v.startStage, inWindow := 0 } : Servo).loadQuiet).countServo
  fun c => { c with stepsTaken := bump c.stepsTaken }

/-! ## Offsets (R4 to R10) -/

/-- The servo enters ACQUIRE at the effective start stage with both counts 0 (R4, R8, R12). -/
def Servo.enterAcquire (v : Servo) : Servo :=
  { v with state := .acquire, stage := v.startStage, inWindow := 0, outlierCount := 0 }

/-- The PI law (R9): divisions floor. -/
def Servo.piLaw (e : Int) (v : Servo) : Servo :=
  let c := -e
  let acc := clampInt (-v.trimLimit) v.trimLimit (v.acc + 16 * c / 2 ^ (v.stage + 4))
  { v with acc := acc, trim := clampInt (-v.trimLimit) v.trimLimit (acc + 16 * c / 2 ^ v.stage) }

/-- The window test at the current stage (R10). A count resting at 8 is decided on again at every in-window offset, so
a final stage written higher raises the stage at the next one (log 42). -/
def Servo.windowTest (e : Int) (v : Servo) : Servo :=
  if e.natAbs < window v.stage then
    let n := min (v.inWindow + 1) 8
    if n = 8 then
      if v.stage < v.effectiveFinal then { v with stage := v.stage + 1, inWindow := 0 }
      else if v.state = .acquire then
        { v with state := .locked, hasLocked := true, inWindow := 0, outlierCount := 0 }
      else { v with inWindow := 8 }
    else { v with inWindow := n }
  else { v with inWindow := 0 }

/-- An offset that reaches the PI law, then the window test (R9, R10, R16). -/
def State.discipline (e : Int) (s : State) : State := s.changeServo fun v => (v.piLaw e).windowTest e

/-- The servo settles its state at the arrival of an offset (R4). -/
def Servo.settle (v : Servo) : Servo :=
  match v.state with
  | .acquire => v
  | .locked => v
  | .freerun => v.enterAcquire
  | .holdover => { v.enterAcquire with timer := .stopped }

/-- The step test in ACQUIRE (R6). -/
def State.stepTest (e : Int) (s : State) : State :=
  if e.natAbs < s.servo.stepThreshold then s.discipline e
  else if s.servo.stepGuard && s.servo.hasLocked then
    (s.countServo fun c => { c with stepsRefused := bump c.stepsRefused }).discipline e
  else s.servoStep e

/-- The outlier test in LOCKED (R8). -/
def State.outlierTest (e : Int) (s : State) : State :=
  if e.natAbs < s.servo.outlierThreshold then
    (s.modServo fun v => { v with outlierCount := 0 }).discipline e
  else
    let n := s.servo.outlierCount + 1
    let t := s.countServo fun c => { c with outliers := bump c.outliers }
    if s.servo.outlierLimit ≤ n then
      let u := (t.countServo fun c => { c with outlierExits := bump c.outlierExits }).modServo Servo.enterAcquire
      (u.raise .outlierLimit).raiseIf (s.servo.lockIndication && !u.servo.lockIndication) .lockLost
    else t.modServo fun v => { v with outlierCount := n }

/-- An offset arrives at the servo, taken whole (R4, R5). -/
def State.offsetArrival (e : Int) (s : State) : State :=
  let t := ((s.modServo fun v => { v with lastOffset := e }).countServo
    fun c => { c with offsetsReceived := bump c.offsetsReceived }).changeServo Servo.settle
  if 0 < t.servo.quiet then
    (t.modServo fun v => { v with quiet := v.quiet - 1 }).countServo
      fun c => { c with quietDiscards := bump c.quietDiscards }
  else
    match t.servo.state with
    | .locked => t.outlierTest e
    | _ => t.stepTest e

/-! ## Selection and holdover (R11 to R14) -/

/-- An entry becomes selected while none was (R11). -/
def Servo.newSelection (v : Servo) : Servo :=
  match v.state, v.timer with
  | .holdover, .running left => { v with timer := .held left }
  | _, _ => v

/-- The selected entry changes to another (R12). -/
def Servo.switchSelection (v : Servo) : Servo :=
  match v.state with
  | .acquire => v.enterAcquire
  | .locked => v.enterAcquire
  | _ => v

/-- The selection becomes none (R13, R17). -/
def State.deselect (s : State) : State :=
  match s.servo.state with
  | .locked =>
    let t := s.modServo fun v =>
      { v with state := .holdover, trim := v.acc, timer := .running (v.holdoverBudget * unitsPerSec) }
    (t.raise .holdoverEntered).raiseIf (s.servo.lockIndication && !t.servo.lockIndication) .lockLost
  | .acquire => (s.modServo fun v => { v with state := .freerun, trim := v.acc }).raise .freerunEntered
  | .holdover =>
    s.modServo fun v =>
      match v.timer with
      | .held left => { v with timer := .running left }
      | _ => v
  | .freerun => s

/-- The servo is told of a change of the selected entry (R11 to R13). -/
def State.selectionChanged (was is : Option (Fin 16)) (s : State) : State :=
  match was, is with
  | none, some _ => s.modServo Servo.newSelection
  | some _, some _ => s.changeServo Servo.switchSelection
  | _, none => s.deselect

/-- The running holdover timer, when its time has run out, expires (R14, R17). -/
def State.expireHoldover (s : State) : State :=
  match s.servo.timer with
  | .running 0 =>
    let t := (s.countServo fun c => { c with holdoverExpiries := bump c.holdoverExpiries }).modServo
      fun v => { v with state := .freerun, timer := .stopped }
    (t.raise .freerunEntered).raiseIf (s.servo.lockIndication && !t.servo.lockIndication) .lockLost
  | _ => s

/-- HOLDOVER_EXPIRY (R14). -/
def execHoldoverExpiry (dt : Nat) (s : State) : Outcome := event dt State.expireHoldover s

/-- TIMESCALE_HOLD (R1): the timescale reaches its largest value in the time that passes, and holds there; no event
is raised. The holding is in `advanceTime`. -/
def execTimescaleHold (dt : Nat) (s : State) : Outcome := event dt (fun t => t) s

/-! ## Commands (R18, R19) -/

/-- SERVO_RESTART (R18, R17). -/
def State.servoRestart (s : State) : State :=
  let selected := s.sources.selected.isSome
  let t := s.modServo fun v =>
    { v with
      hasLocked := false
      stage := v.startStage
      inWindow := 0
      outlierCount := 0
      trim := v.acc
      timer := .stopped
      state := if selected then .acquire else .freerun }
  (t.raiseIf (!selected && s.servo.state != .freerun) .freerunEntered).raiseIf s.servo.lockIndication .lockLost

/-- A successful SET_TIME (R19): the value exactly, sub-nanoseconds included, as a step in the sense of R3. -/
def State.setTime (t : TimeValue) (s : State) : State :=
  ((s.modServo fun v => { v with frac := 0 }).moveTime .setTime t).modServo Servo.loadQuiet

end Sys2Proof.Machine
end

