-- ==== Sys2Proof/Machine/Sources.lean ====
section
/-! DEFINITION. The source monitor: rules, comparison, selection, house items, Offers, and the deadlines of the
source table (R73 to R94). -/

namespace Sys2Proof.Machine

open Sys2Proof.Config

/-! ## Rules (R83) -/

/-- Whether a rule row matches a key. -/
def SourceRule.covers (r : SourceRule) (sender : Ident) (p : Path) : Bool :=
  r.sender.all (· == sender) && r.paths.has p

/-- The first row that applies to a key (R83). -/
def Sources.ruleFor (q : Sources) (sender : Ident) (p : Path) : Option (Fin 8) :=
  findRow q.rules (·.covers sender p)

/-- Rule row, rank and barred flag of a key: 128 and clear where no row matches (R83). -/
def Sources.standing (q : Sources) (sender : Ident) (p : Path) : Option (Fin 8) × Nat × Bool :=
  match q.ruleFor sender p with
  | none => (none, 128, false)
  | some i =>
    match q.rules[i] with
    | some ⟨_, _, .prefer rank⟩ => (some i, rank, false)
    | some ⟨_, _, .bar⟩ => (some i, 128, true)
    | none => (none, 128, false)

/-- The rules evaluated for an entry (R83). -/
def Sources.applyRules (q : Sources) (e : SourceEntry) : SourceEntry :=
  let r := q.standing e.sender e.path
  { e with ruleRow := r.1, rank := r.2.1, barred := r.2.2 }

/-! ## Comparison (R82, R84) -/

/-- The compared fields of levels 1 to 5 (R84). -/
def qualityOf (rank : Nat) (o : OfferBody) : List Nat := [rank, o.tier, o.accuracy, o.stability, o.steps]

def SourceEntry.quality (e : SourceEntry) : List Nat := qualityOf e.rank e.offer

/-- The lower value at the first difference is better (R84). -/
def firstLower : List Nat → List Nat → Bool
  | x :: xs, y :: ys => if x = y then firstLower xs ys else decide (x < y)
  | _, _ => false

/-- All seven levels, the preferred path first at level 6 (R84). -/
def SourceEntry.levels (preferred : Path) (e : SourceEntry) : List Nat :=
  e.quality ++ [if e.path = preferred then 0 else 1, e.sender.toNat]

def SourceEntry.better (preferred : Path) (a b : SourceEntry) : Bool :=
  firstLower (a.levels preferred) (b.levels preferred)

/-- Eligible under R82, given whether the network-side port of its path is UP. -/
def SourceEntry.eligible (portUp : Bool) (e : SourceEntry) : Bool :=
  e.state == .qualified && !e.mute && !e.barred && portUp && e.offer.steps < 255

/-- Whether a row holds an eligible entry. -/
def State.rowEligible (s : State) (i : Fin 16) : Bool :=
  (s.sources.table[i]).any fun e => e.eligible (s.path e.path).net.up

/-- The best row of those satisfying a test, by an order on entries. -/
def Sources.pick (q : Sources) (test : Fin 16 → Bool) (order : SourceEntry → SourceEntry → Bool) :
    Option (Fin 16) :=
  (List.finRange 16).foldl (fun best i =>
    if test i then
      match best with
      | none => some i
      | some j =>
        match q.table[i], q.table[j] with
        | some e, some f => if order e f then some i else best
        | _, _ => best
    else best) none

/-- The best eligible entry, of all or of one path (R85). -/
def State.bestEligible (s : State) (test : SourceEntry → Bool) : Option (Fin 16) :=
  s.sources.pick (fun i => s.rowEligible i && (s.sources.table[i]).any test)
    (SourceEntry.better s.sources.preferred)

/-! ## House items (R89, R90) -/

/-- The house items after a load from an entry (R89). -/
def HouseItems.load (h : HouseItems) (o : OfferBody) : HouseItems :=
  { h with
    utc := if !h.pinUtc && o.utcValid then o.utc else h.utc
    zone := if h.pinZone then h.zone else (o.house.map (·.zone)).getD h.zone
    jam := if h.pinJam then h.jam else (o.house.map (·.jam)).getD h.jam }

/-- House items take new values; the label unit is told once when one changed (R89, R90). -/
def State.setHouse (h : HouseItems) (s : State) : State :=
  let t := s.modSources fun q => { q with house := h }
  if s.sources.house.utc = h.utc ∧ s.sources.house.zone = h.zone ∧ s.sources.house.jam = h.jam then t
  else t.tellLabels

/-- A house-item load from the selected entry (R89). -/
def State.loadHouse (s : State) : State :=
  match s.sources.selectedEntry with
  | none => s
  | some e => s.setHouse (s.sources.house.load e.offer)

/-! ## Selection (R85 to R87) -/

/-- What a run decides for the selected entry (R85). -/
def State.nextSelected (s : State) : Option (Fin 16) :=
  let best := s.bestEligible fun _ => true
  match s.sources.selected with
  | none => best
  | some i =>
    if s.rowEligible i then
      match s.sources.revertive, best with
      | true, some j =>
        match s.sources.table[j], s.sources.table[i] with
        | some e, some f => if firstLower e.quality f.quality then some j else some i
        | _, _ => some i
      | _, _ => some i
    else best

/-- The lead of a path once `sel` is selected (R85). -/
def State.leadFor (s : State) (sel : Option (Fin 16)) (p : Path) : Option Ident :=
  let onPath : Option SourceEntry := sel.bind fun i => (s.sources.table[i]).filter (·.path == p)
  match onPath with
  | some e => some e.sender
  | none => (s.bestEligible (·.path == p)).bind fun i => (s.sources.table[i]).map (·.sender)

def Measure.setLead (l : Option Ident) (p : PathState) : PathState :=
  { p with measure := { p.measure with lead := l } }

/-- The selected entry changes (R87). -/
def State.changeSelection (was is : Option (Fin 16)) (s : State) : State :=
  let t := ((s.modSources fun q => { q with selected := is }).raise .sourceChanged).modSources
    fun q => { q with changes := bump q.changes }
  let u := t.selectionChanged was is
  if is.isSome then u.loadHouse else u

/-- A run of selection (R85 to R87). -/
def State.runSelection (s : State) : State :=
  let was := s.sources.selected
  let is := s.nextSelected
  let t := (s.modPath .a (Measure.setLead (s.leadFor is .a))).modPath .b (Measure.setLead (s.leadFor is .b))
  if was = is then t else t.changeSelection was is

/-! ## Entries -/

def SourceEntry.hasKey (e : SourceEntry) (sender : Ident) (p : Path) : Bool := e.sender == sender && e.path == p

def Sources.findKey (q : Sources) (sender : Ident) (p : Path) : Option (Fin 16) :=
  findRow q.table (·.hasKey sender p)

def State.modEntry (s : State) (i : Fin 16) (f : SourceEntry → SourceEntry) : State :=
  s.modSources fun q => { q with table := modifyEntry q.table i f }

/-- The fields an Offer replaces (R74). The deadline restarts at the taking of the Offer (log 45). -/
def SourceEntry.takeOffer (c : ScxCopy) (o : OfferBody) (e : SourceEntry) : SourceEntry :=
  { e with
    station := c.source
    offer := o
    offerExp := clampInt (-3) 4 c.msg.exponent
    lastOffer := c.stamp.time
    sinceOffer := 0 }

/-- A new or revived entry: NEW, count 1, mute, nothing measured (R75, R78, R107). -/
def SourceEntry.fresh (c : ScxCopy) (o : OfferBody) (p : Path) : SourceEntry where
  sender := c.msg.sender
  path := p
  station := c.source
  offer := o
  offerExp := clampInt (-3) 4 c.msg.exponent
  beaconExp := none
  state := .new
  count := 1
  lastOffer := c.stamp.time
  lastBeacon := none
  mute := true
  ruleRow := none
  rank := 128
  barred := false
  sinceOffer := 0
  sinceLost := 0
  sinceBeacon := none
  pending := none
  leg := none
  window := []

/-- A NEW entry whose count reaches the qualification count becomes QUALIFIED (R76). -/
def State.qualify (i : Fin 16) (s : State) : State :=
  match s.sources.table[i] with
  | none => s
  | some e =>
    if e.state = .new ∧ s.sources.qualCount ≤ e.count then
      (s.modEntry i fun e => { e with state := .qualified }).countSources e.path
        fun c => { c with qualifications := bump c.qualifications }
    else s

/-- The measurement unit is told that an entry is gone: a record targeting it is cleared (R107). -/
def State.dropTarget (sender : Ident) (p : Path) (s : State) : State :=
  s.modPath p fun q => if q.measure.record.any (·.target == sender) then q.clearRecord else q

/-- A row is freed and the measurement unit told (R79, R88). -/
def State.removeEntry (i : Fin 16) (s : State) : State :=
  match s.sources.table[i] with
  | none => s
  | some e => (s.modSources fun q => { q with table := q.table.set i none }).dropTarget e.sender e.path

/-- An Offer creates its entry in a row (R75), with the run of selection. -/
def State.createEntry (i : Fin 16) (c : ScxCopy) (o : OfferBody) (p : Path) (s : State) : State :=
  ((((s.modSources fun q => { q with table := q.table.set i (some (q.applyRules (.fresh c o p))) }).countSources p
    fun k => { k with offersTaken := bump k.offersTaken, created := bump k.created }).qualify i)).runSelection

/-- An Offer of a LOST entry revives it in its row (R78). -/
def State.reviveEntry (i : Fin 16) (c : ScxCopy) (o : OfferBody) (p : Path) (s : State) : State :=
  ((((s.modSources fun q => { q with table := q.table.set i (some (q.applyRules (.fresh c o p))) }).countSources p
    fun k => { k with offersTaken := bump k.offersTaken, revivals := bump k.revivals }).qualify i)).runSelection

/-- An Offer updates a NEW or QUALIFIED entry (R74): selection runs when a compared field or the state changed,
and the house items are loaded when the entry is the selected one (R89). -/
def State.updateEntry (i : Fin 16) (e : SourceEntry) (c : ScxCopy) (o : OfferBody) (s : State) : State :=
  let t := ((s.modEntry i fun e => { e.takeOffer c o with count := min 8 (e.count + 1) }).countSources e.path
    fun k => { k with offersTaken := bump k.offersTaken }).qualify i
  let changed := (t.sources.table[i]).any fun f => f.quality != e.quality || f.state != e.state
  let u := if changed then t.runSelection else t
  if u.sources.selected = some i then u.loadHouse else u

/-! ## Table full (R88) -/

/-- Rows whose entry has been LOST longest; more than one when several became LOST together (log 19). -/
def Sources.longestLost (q : Sources) : List (Fin 16) :=
  let lost := (List.finRange 16).filter fun i => (q.table[i]).any (·.state == .lost)
  let since := fun i => (q.table[i]).elim 0 (·.sinceLost)
  lost.filter fun i => lost.all fun j => since j ≤ since i

/-- Worse for the search of R88 case 2: a barred entry is worse than every unbarred one. -/
def worseThan (preferred : Path) (a b : SourceEntry) : Bool :=
  if a.barred == b.barred then b.better preferred a else a.barred

/-- The worst non-selected entry (R88 case 2). -/
def Sources.worst (q : Sources) : Option (Fin 16) :=
  q.pick (fun i => (q.table[i]).isSome && q.selected != some i) (worseThan q.preferred)

/-- An Offer with a new key meets a full table (R88). -/
def State.offerTableFull (c : ScxCopy) (o : OfferBody) (p : Path) (s : State) : State :=
  match s.sources.longestLost with
  | i :: rest =>
    let row := (i :: rest).getD (longestLostChoice s.free % (rest.length + 1)) i
    let path := (s.sources.table[row]).elim p (·.path)
    let t : State := if rest.isEmpty then s else { s with free := s.free + 1 }
    ((t.removeEntry row).countSources path fun k => { k with purges := bump k.purges }).createEntry row c o p
  | [] =>
    let r := s.sources.standing c.msg.sender p
    let beaten := s.sources.worst.filter fun i =>
      !r.2.2 && (s.sources.table[i]).any fun e => firstLower (qualityOf r.2.1 o) e.quality
    match beaten with
    | some i =>
      let path := (s.sources.table[i]).elim p (·.path)
      ((s.removeEntry i).countSources path fun k => { k with replacements := bump k.replacements }).createEntry i c o p
    | none =>
      (s.countSources p fun k => { k with tableFull := bump k.tableFull }).raise .sourceTableFull

/-- The source monitor takes an Offer copy of a path (R74, R75, R78, R88). -/
def State.takeOffer (p : Path) (c : ScxCopy) (o : OfferBody) (s : State) : State :=
  match s.sources.findKey c.msg.sender p with
  | some i =>
    match s.sources.table[i] with
    | none => s
    | some e => if e.state = .lost then s.reviveEntry i c o p else s.updateEntry i e c o
  | none =>
    match freeRow s.sources.table with
    | some i => s.createEntry i c o p
    | none => s.offerTableFull c o p

def State.modInbox (s : State) (p : Path) (f : Inbox → Inbox) : State :=
  s.modPath p fun q => { q with inbox := f q.inbox }

/-- The oldest Offer copy of a path is taken (log 8). -/
def State.nextOffer (p : Path) (s : State) : State :=
  match (s.path p).inbox.offers with
  | [] => s
  | c :: rest =>
    let t := s.modInbox p fun b => { b with offers := rest }
    match c.msg.body with
    | .offer o => t.takeOffer p c o
    | _ => t

/-- OFFER_TAKEN (R74). -/
def execOfferTaken (dt : Nat) (path : Path) (s : State) : Outcome := event dt (State.nextOffer path) s

/-! ## Deadlines (R77, R79, R80, R81) -/

/-- A NEW or QUALIFIED entry becomes LOST; SOURCE_LOST is raised when it is the selected one (R77). The run of
selection is the caller's. -/
def State.loseEntry (i : Fin 16) (s : State) : State :=
  match s.sources.table[i] with
  | none => s
  | some e =>
    if e.state = .lost then s
    else
      ((s.modEntry i fun e => { e with state := .lost, count := 0, sinceLost := 0 }).countSources e.path
        fun k => { k with losses := bump k.losses }).raiseIf (s.sources.selected == some i) .sourceLost

/-- The Offer deadline of an entry, in correction units after its last Offer (R77). -/
def Sources.offerDeadline (q : Sources) (e : SourceEntry) : Nat := q.lossLimit * expSeconds e.offerExp

/-- The Offer deadline of a row, when due (R77). -/
def State.offerDeadline (i : Fin 16) (s : State) : State :=
  match s.sources.table[i] with
  | none => s
  | some e =>
    if e.state ≠ .lost ∧ s.sources.offerDeadline e ≤ e.sinceOffer then (s.loseEntry i).runSelection else s

/-- OFFER_DEADLINE (R77). -/
def execOfferDeadline (dt : Nat) (row : Fin 16) (s : State) : Outcome := event dt (State.offerDeadline row) s

/-- A written loss limit recomputes every deadline, and entries already due become LOST, each as by its deadline
(R77). -/
def State.setLossLimit (v : Nat) (s : State) : State :=
  (List.finRange 16).foldl (fun t i => t.offerDeadline i)
    (s.modSources fun q => { q with lossLimit := clampNat 2 10 v })

/-- The purge time of an entry, in correction units after it became LOST (R79). -/
def SourceEntry.purgeTime (e : SourceEntry) : Nat := 64 * expSeconds e.offerExp

/-- The purge of a row, when due (R79). -/
def State.purgeRow (i : Fin 16) (s : State) : State :=
  match s.sources.table[i] with
  | none => s
  | some e =>
    if e.state = .lost ∧ e.purgeTime ≤ e.sinceLost then
      ((s.removeEntry i).countSources e.path fun k => { k with purges := bump k.purges }).runSelection
    else s

/-- PURGE (R79). -/
def execPurge (dt : Nat) (row : Fin 16) (s : State) : Outcome := event dt (State.purgeRow row) s

/-- The mute deadline of an entry, in correction units after its last completed Beacon (R80). -/
def SourceEntry.muteTime (e : SourceEntry) : Nat := 4 * expSeconds (e.beaconExp.getD 0)

/-- The mute deadline of a row, when due (R80). -/
def State.muteDeadline (i : Fin 16) (s : State) : State :=
  match s.sources.table[i] with
  | none => s
  | some e =>
    if e.sinceBeacon.any (e.muteTime ≤ ·) then
      ((s.modEntry i fun e => { e with mute := true, sinceBeacon := none }).countSources e.path
        fun k => { k with muteEntries := bump k.muteEntries }).runSelection
    else s

/-- MUTE_DEADLINE (R80). -/
def execMuteDeadline (dt : Nat) (row : Fin 16) (s : State) : Outcome := event dt (State.muteDeadline row) s

/-- The report of a completed Beacon (R80). -/
def State.reportBeacon (i : Fin 16) (exponent : Int) (time : Int) (s : State) : State :=
  let was := (s.sources.table[i]).any (·.mute)
  let t := s.modEntry i fun e =>
    { e with
      beaconExp := some (clampInt (-7) 1 exponent)
      lastBeacon := some time
      sinceBeacon := some 0
      mute := false }
  if was then t.runSelection else t

/-- NA or NB of a path has gone DOWN: its NEW and QUALIFIED entries become LOST, selection is run once (R81). -/
def State.loseSources (p : Path) (s : State) : State :=
  ((List.finRange 16).foldl
    (fun t i => if (t.sources.table[i]).any (·.path == p) then t.loseEntry i else t) s).runSelection

/-- A written rule: the row is stored, every entry's rules are evaluated again, selection runs once (R83). -/
def State.storeRule (i : Fin 8) (r : Option SourceRule) (s : State) : State :=
  (s.modSources fun q =>
    let q' := { q with rules := q.rules.set i r }
    { q' with table := mapEntries q'.table q'.applyRules }).runSelection

/-- The checked content of a WRITE_ROW to RULES: none is BAD_VALUE, some none is EMPTY; in use is 1
alone (R83, R187, log 46). The other bytes of a row written EMPTY are not checked (log 51). -/
def checkRule (w : RuleWrite) : Option (Option SourceRule) :=
  match w.inUse.toNat with
  | 0 => some none
  | 1 =>
    match readPathSet w.pathSet, w.action.toNat, w.form.toNat with
    | some ps, 0, 0 => some (some ⟨some w.ident, ps, .prefer w.rank.toNat⟩)
    | some ps, 0, 1 => some (some ⟨none, ps, .prefer w.rank.toNat⟩)
    | some ps, 1, 0 => some (some ⟨some w.ident, ps, .bar⟩)
    | some ps, 1, 1 => some (some ⟨none, ps, .bar⟩)
    | _, _, _ => none
  | _ => none

end Sys2Proof.Machine
end

