-- ==== Sys2Proof/Machine/Measure.lean ====
section
/-! DEFINITION. The measurement unit: Probes, Replies, forward legs, delay windows and offsets (R95 to R110). -/

namespace Sys2Proof.Machine

open Sys2Proof.Config

/-- The delay estimate: floor of the mean, valid while the window holds a sample (R103). -/
def delayEstimate (w : List Int) : Option Int :=
  if w.isEmpty then none else some (w.sum / w.length)

/-- The newest n samples of a window held oldest first (R103). -/
def newest (n : Nat) (w : List Int) : List Int := w.drop (w.length - n)

/-- The part's identity on a path. -/
def State.identity (s : State) (p : Path) : Ident := identityOf s.ctl.station p

/-! ## Probing (R95, R96) -/

/-- The bytes of a Probe toward a station (R58, R184). -/
def probeFrame (dst src : Station) (sender : Ident) (domain : Nat) (exponent : Int) (sequence : Nat)
    (now : TimeValue) : List Byte :=
  sealFrame <|
    putBits 6 dst ++ putBits 6 src ++ beBytes 2 scxType ++
    [0x14] ++ putNat 1 domain ++ [0] ++ putInt 1 exponent ++ beBytes 2 40 ++ putNat 2 sequence ++
    zeros 8 ++ putBits 8 sender ++ zeros 4 ++
    putNat 6 now.sec ++ putNat 4 now.ns ++ zeros 2

/-- The previous Probe is resolved at a due instant: a sent record is counted lost (R96). -/
def State.resolveProbe (p : Path) (s : State) : State :=
  match (s.path p).measure.record with
  | none => s
  | some _ =>
    ((s.countMeasure p fun c => { c with probesLost := bump c.probesLost }).modPath p PathState.clearRecord).raise
      .probeLost

/-- A Probe is queued with its record; the arbiter is told after the record stands (R45, R96). -/
def State.queueProbe (p : Path) (target : Ident) (dst : Station) (s : State) : State :=
  s.modPath p fun q =>
    let m := q.measure
    let frame := probeFrame dst s.ctl.station (s.identity p) s.classifier.listenDomain m.exponent m.nextSequence
      s.servo.time
    ({ q with
        queues := { q.queues with time := some ⟨frame, m.nextSequence⟩ }
        measure := { m with
          record := some ⟨target, m.nextSequence, none⟩
          nextSequence := (m.nextSequence + 1) % 65536
          count := { m.count with probesQueued := bump m.count.probesQueued } } } : PathState).becamePending
      s.instant .time

def State.skipProbe (p : Path) (s : State) : State :=
  s.countMeasure p fun c => { c with probesSkipped := bump c.probesSkipped }

/-- A Probe toward the lead is built and offered to the TIME queue (R96). -/
def State.offerProbe (p : Path) (s : State) : State :=
  match (s.path p).measure.lead with
  | none => s
  | some lead =>
    match (s.sources.findKey lead p).bind fun i => s.sources.table[i] with
    | none => s
    | some e =>
      if (s.path p).acceptsProbe then s.queueProbe p lead e.station else s.skipProbe p

/-- A due instant of a path (R95, R96). -/
def State.probeDue (p : Path) (s : State) : State :=
  let m := (s.path p).measure
  let period := expSeconds m.exponent
  if period ≤ m.timer then
    let t := s.modPath p fun q => { q with measure := { q.measure with timer := q.measure.timer - period } }
    if m.record.any (·.departure.isNone) then t.skipProbe p else (t.resolveProbe p).offerProbe p
  else s

/-- PROBE_DUE (R96). -/
def execProbeDue (dt : Nat) (path : Path) (s : State) : Outcome := event dt (State.probeDue path) s

/-! ## Replies (R98, R102) -/

/-- A delay sample enters the window of an entry (R102, R103). -/
def State.addSample (p : Path) (i : Fin 16) (f r : Int) (s : State) : State :=
  let d := (f + r) / 2
  let w := (s.path p).measure.windowLength
  let t := (s.modEntry i fun e => { e with window := newest w (e.window ++ [max 0 d]) }).countMeasure p fun c =>
    { c with samples := bump c.samples }
  if d < 0 then (t.countMeasure p fun c => { c with anomalies := bump c.anomalies }).raise .delayAnomaly else t

/-- Whether a Reply matches the outstanding record (R98). -/
def ProbeRecord.answeredBy (r : ProbeRecord) (sender : Ident) (sequence : Nat) : Bool :=
  r.departure.isSome && r.sequence == sequence && r.target == sender

/-- A Reply's record is cleared and its legs are used (R98). -/
def State.useReply (p : Path) (m : Scx) (receipt : MessageTime) (departure : Int) (s : State) : State :=
  let t := s.modPath p PathState.clearRecord
  if receipt.isTime then
    let leg := receipt.units - departure - m.correction
    match s.sources.findKey m.sender p with
    | none => t.countMeasure p fun c => { c with noSample := bump c.noSample }
    | some i =>
      match (s.sources.table[i]).bind (·.leg) with
      | none => t.countMeasure p fun c => { c with noSample := bump c.noSample }
      | some f => t.addSample p i f leg
  else t.countMeasure p fun c => { c with unusable := bump c.unusable }

/-- An OWN REPLY is matched against the record of its path (R98). -/
def State.takeReply (p : Path) (m : Scx) (receipt : MessageTime) (sequence : Nat) (s : State) : State :=
  match (s.path p).measure.record with
  | none => s.countMeasure p fun c => { c with strayReplies := bump c.strayReplies }
  | some r =>
    match r.answeredBy m.sender sequence, r.departure with
    | true, some d => s.useReply p m receipt d
    | _, _ => s.countMeasure p fun c => { c with strayReplies := bump c.strayReplies }

/-- The oldest Reply copy of a path is taken (log 8). -/
def State.nextReply (p : Path) (s : State) : State :=
  match (s.path p).inbox.replies with
  | [] => s
  | c :: rest =>
    let t := s.modInbox p fun b => { b with replies := rest }
    match c.msg.body with
    | .reply receipt _ sequence => t.takeReply p c.msg receipt sequence
    | _ => t

/-- REPLY_TAKEN (R98). -/
def execReplyTaken (dt : Nat) (path : Path) (s : State) : Outcome := event dt (State.nextReply path) s

/-! ## Beacons and offsets (R99 to R106) -/

/-- An offset for the servo, or a withheld one (R104). -/
def State.produceOffset (p : Path) (i : Fin 16) (f : Int) (s : State) : State :=
  match delayEstimate ((s.sources.table[i]).elim [] (·.window)) with
  | none => s.countMeasure p fun c => { c with withheld := bump c.withheld }
  | some d =>
    (s.countMeasure p fun c => { c with produced := bump c.produced }).offsetArrival
      (clampInt (-1000000000) 1000000000 ((f - d) / unitsPerNs))

/-- A completed Beacon of the entry in row i: arrival a, origin o, correction cb; `time` is the trimmed ingress
timestamp of the completing message (R101). The offset goes to the entry selected before the report (R104). -/
def State.completeBeacon (p : Path) (i : Fin 16) (a o cb exponent time : Int) (s : State) : State :=
  let f := a - o - cb
  let t := ((s.modEntry i fun e => { e with leg := some f }).countMeasure p fun c =>
    { c with completed := bump c.completed }).reportBeacon i exponent time
  if s.sources.selected = some i then t.produceOffset p i f else t

/-- Stale: stamped before a step that has since been reported (R106). -/
def State.isStale (s : State) (c : ScxCopy) : Bool := c.stamp.stepSum != s.correction.stepSum

/-- A Beacon copy is taken (R99). A paired one is held whatever its origin, which is not used (R99, log 43). -/
def State.takeBeacon (p : Path) (c : ScxCopy) (origin : MessageTime) (s : State) : State :=
  if s.isStale c then s.countMeasure p fun k => { k with stale := bump k.stale }
  else
    match s.sources.findKey c.msg.sender p with
    | none => s.countMeasure p fun k => { k with withoutEntry := bump k.withoutEntry }
    | some i =>
      if c.msg.paired then
        let held := (s.sources.table[i]).any (·.pending.isSome)
        let t := if held then s.countMeasure p fun k => { k with abandoned := bump k.abandoned } else s
        let b : PendingBeacon :=
          ⟨c.msg.domain, c.msg.sequence, c.stamp.time, c.msg.correction, c.msg.exponent⟩
        t.modEntry i fun e => { e with pending := some b }
      else if origin.isTime then
        s.completeBeacon p i c.stamp.time origin.units c.msg.correction c.msg.exponent c.stamp.time
      else s.countMeasure p fun k => { k with badOrigins := bump k.badOrigins }

/-- Whether a Detail completes a pending Beacon of its sender: same domain and sequence (R57, R100, log 44). -/
def PendingBeacon.completedBy (b : PendingBeacon) (m : Scx) : Bool := b.sequence == m.sequence && b.domain == m.domain

/-- A Detail copy is taken (R100). A Detail whose origin is no time is not used (R57); one whose origin is a time completes
the held Beacon, whatever approximate origin that Beacon had (R99, R100, log 43). -/
def State.takeDetail (p : Path) (c : ScxCopy) (origin : MessageTime) (s : State) : State :=
  if s.isStale c then s.countMeasure p fun k => { k with stale := bump k.stale }
  else
    match s.sources.findKey c.msg.sender p with
    | none => s.countMeasure p fun k => { k with withoutEntry := bump k.withoutEntry }
    | some i =>
      match ((s.sources.table[i]).bind (·.pending)).filter (·.completedBy c.msg) with
      | none => s.countMeasure p fun k => { k with detailsIgnored := bump k.detailsIgnored }
      | some b =>
        let t := s.modEntry i fun e => { e with pending := none }
        if origin.isTime then
          t.completeBeacon p i b.arrival origin.units (b.correction + c.msg.correction) b.exponent c.stamp.time
        else t.countMeasure p fun k => { k with badOrigins := bump k.badOrigins }

/-- The oldest Beacon copy of a path is taken (log 8). -/
def State.nextBeacon (p : Path) (s : State) : State :=
  match (s.path p).inbox.beacons with
  | [] => s
  | c :: rest =>
    let t := s.modInbox p fun b => { b with beacons := rest }
    match c.msg.body with
    | .beacon origin => t.takeBeacon p c origin
    | _ => t

/-- The oldest Detail copy of a path is taken (log 8). -/
def State.nextDetail (p : Path) (s : State) : State :=
  match (s.path p).inbox.details with
  | [] => s
  | c :: rest =>
    let t := s.modInbox p fun b => { b with details := rest }
    match c.msg.body with
    | .detail origin => t.takeDetail p c origin
    | _ => t

/-- BEACON_TAKEN (R99). -/
def execBeaconTaken (dt : Nat) (path : Path) (s : State) : Outcome := event dt (State.nextBeacon path) s

/-- DETAIL_TAKEN (R100). -/
def execDetailTaken (dt : Nat) (path : Path) (s : State) : Outcome := event dt (State.nextDetail path) s

/-! ## Items (R95, R103, R108) -/

/-- A written Probe interval exponent: clamped, and the next due instant is a full interval away (R95, R108). -/
def State.setProbeExponent (p : Path) (v : Int) (s : State) : State :=
  s.modPath p fun q => { q with measure := { q.measure with exponent := clampInt (-7) 4 v, timer := 0 } }

/-- A written delay window length: clamped, and the windows of the path keep their newest samples (R103, R108). -/
def State.setWindowLength (p : Path) (v : Nat) (s : State) : State :=
  let w := clampNat 1 8 v
  let t := s.modPath p fun q => { q with measure := { q.measure with windowLength := w } }
  t.modSources fun q =>
    { q with table := mapEntries q.table (fun e =>
        if e.path = p then { e with window := newest w e.window } else e) }

end Sys2Proof.Machine
end

