-- ==== Sys2Proof/Machine/Flow.lean ====
section
/-! DEFINITION. The flow alignment monitor: row writes, enabling, taking of datagrams, silence (R158 to R168). -/

namespace Sys2Proof.Machine

open Sys2Proof.Config

/-! ## Row writes (R158, R159) -/

/-- The configured part of a write that passes checks 1 and 2 of R158; none is BAD_VALUE. -/
def checkFlow (w : FlowWrite) : Option FlowConfig :=
  match readYesNo w.enabled, readPathSet w.pathSet, readDirSet w.dirSet with
  | some en, some ps, some ds =>
    let rate := w.rate.toNat
    if 1 ≤ rate ∧ rate ≤ 1000000 ∧ w.stampPos.toNat ≤ 60 ∧ w.lo.toInt ≤ w.hi.toInt then
      some ⟨en, w.group, w.port, ps, ds, rate, w.offset.toInt, w.stampPos.toNat, w.lo.toInt, w.hi.toInt,
        w.silence.toNat⟩
    else none
  | _, _, _ => none

/-- Two rows overlap: same group address and port, a path in common, a direction in common (R158). -/
def FlowConfig.overlaps (a b : FlowConfig) : Bool :=
  a.group == b.group && a.port == b.port &&
    ((a.paths.a && b.paths.a) || (a.paths.b && b.paths.b)) &&
    ((a.dirs.down && b.dirs.down) || (a.dirs.up && b.dirs.up))

/-- Whether a row written at i overlaps another enabled row (R158 check 3). -/
def Flow.duplicates (f : Flow) (i : Fin 64) (c : FlowConfig) : Bool :=
  c.enabled && (List.finRange 64).any fun j =>
    j != i && f.rows[j].config.enabled && c.overlaps f.rows[j].config

/-- An accepted write stores the configured part and resets the statistics (R159). -/
def State.storeFlow (i : Fin 64) (c : FlowConfig) (s : State) : State :=
  s.modFlow fun f => { f with rows := f.rows.set i ⟨c, .reset⟩ }

/-- Enabled rows (item 901, R168). -/
def Flow.enabledRows (f : Flow) : Nat := (List.finRange 64).countP fun i => f.rows[i].config.enabled

/-! ## Enabling (R160) -/

/-- The full silence limit in correction units. -/
def FlowConfig.fullSilence (c : FlowConfig) : Nat := c.silence * unitsPerMs

/-- A row at a write of ON. -/
def FlowRow.restart (r : FlowRow) : FlowRow :=
  if r.stats.state = .active ∧ 0 < r.config.silence then
    { r with stats := { r.stats with timer := some r.config.fullSilence } }
  else r

/-- A row at a write of OFF. -/
def FlowRow.stop (r : FlowRow) : FlowRow := { r with stats := { r.stats with timer := none } }

/-- A write of the enable item (R160). -/
def State.setFlowEnable (on : Bool) (s : State) : State :=
  s.modFlow fun f => { f with enable := on, rows := mapRows f.rows fun r => if on then r.restart else r.stop }

/-! ## Taking a datagram (R36, R161 to R164) -/

def DirSet.has (d : DirSet) (down : Bool) : Bool := if down then d.down else d.up

/-- Whether a row matches a datagram of a port (R36). -/
def FlowConfig.matches (c : FlowConfig) (p : Port) (group : BitVec 32) (port : BitVec 16) : Bool :=
  c.enabled && c.group == group && c.port == port && c.paths.has p.path && c.dirs.has p.isNet

/-- The enabled row that matches, while the monitor is ON (R36, R160). -/
def Flow.matching (f : Flow) (p : Port) (m : MediaCopy) : Option (Fin 64) :=
  if f.enable then (List.finRange 64).find? fun i => f.rows[i].config.matches p m.group m.port else none

/-- The expected media clock value of a trimmed timestamp (R162). -/
def FlowConfig.expected (c : FlowConfig) (time : Int) : Int :=
  (time / unitsPerNs * c.rate / nsPerSec + c.offset) % 4294967296

/-- The offset of a stamp against the expected value (R163). -/
def mediaOffset (stamp : Nat) (x : Int) : Int :=
  let d := ((stamp : Int) - x) % 4294967296
  if 2147483648 ≤ d then d - 4294967296 else d

/-- Whether an offset breaches the tolerance (R164). -/
def FlowConfig.isBreach (c : FlowConfig) (d : Int) : Bool := d < c.lo || c.hi < d

/-- Last, min and max after an offset (R163 step 2). -/
def FlowOffsets.add (o : Option FlowOffsets) (d : Int) : FlowOffsets :=
  match o with
  | none => ⟨d, d, d⟩
  | some v => ⟨d, Min.min v.min d, Max.max v.max d⟩

/-- The row after a measured datagram (R163, R164). -/
def FlowRow.measure (d : Int) (r : FlowRow) : FlowRow :=
  let bad := r.config.isBreach d
  { r with stats :=
      { state := .active
        packets := bump r.stats.packets
        offsets := some (FlowOffsets.add r.stats.offsets d)
        outside := if bad then bump r.stats.outside else r.stats.outside
        breach := r.stats.breach || bad
        timer := if 0 < r.config.silence then some r.config.fullSilence else r.stats.timer } }

/-- The row after a short datagram: a running silence timer restarts (R161). -/
def FlowRow.short (r : FlowRow) : FlowRow :=
  { r with stats := { r.stats with timer := r.stats.timer.map fun _ => r.config.fullSilence } }

def Flow.modRow (f : Flow) (i : Fin 64) (g : FlowRow → FlowRow) : Flow :=
  { f with rows := modifyRow f.rows i g }

/-- Row i takes a datagram (R161). -/
def State.measureMedia (i : Fin 64) (m : MediaCopy) (s : State) : State :=
  let c := (s.flow.rows[i]).config
  if m.payload.length < c.position + 4 then
    s.modFlow fun f => { f.modRow i FlowRow.short with shorts := bump f.shorts }
  else
    let d := mediaOffset (fieldAt m.payload c.position 4) (c.expected m.stamp.time)
    (s.modFlow fun f => { f.modRow i (·.measure d) with measurements := bump f.measurements }).raiseIf
      (c.isBreach d) .flowBreach

/-- A MEDIA datagram is matched and taken (log 9). -/
def State.takeMedia (p : Port) (m : MediaCopy) (s : State) : State :=
  match s.flow.matching p m with
  | none => s
  | some i => s.measureMedia i m

/-- The datagrams of a port not yet taken, oldest first. -/
def Inbox.media (b : Inbox) (net : Bool) : List MediaCopy := if net then b.mediaDown else b.mediaUp

def Inbox.setMedia (b : Inbox) (net : Bool) (l : List MediaCopy) : Inbox :=
  if net then { b with mediaDown := l } else { b with mediaUp := l }

/-- The oldest MEDIA datagram of a port is taken (log 8). -/
def State.nextMedia (p : Port) (s : State) : State :=
  match (s.path p.path).inbox.media p.isNet with
  | [] => s
  | m :: rest => (s.modInbox p.path fun b => b.setMedia p.isNet rest).takeMedia p m

/-- MEDIA_DATAGRAM_TAKEN (R163). -/
def execMediaDatagramTaken (dt : Nat) (port : Port) (s : State) : Outcome := event dt (State.nextMedia port) s

/-! ## Silence (R165) -/

def FlowRow.silent (r : FlowRow) : FlowRow := { r with stats := { r.stats with state := .silent, timer := none } }

/-- The silence timer of a row, when it has run out, ends (R165). -/
def State.silenceEnds (i : Fin 64) (s : State) : State :=
  match (s.flow.rows[i]).stats.timer with
  | some 0 =>
    (s.modFlow fun f => { f.modRow i FlowRow.silent with silences := bump f.silences }).raise .flowSilent
  | _ => s

/-- SILENCE_TIMER_EXPIRY (R165). -/
def execSilenceTimerExpiry (dt : Nat) (row : Fin 64) (s : State) : Outcome := event dt (State.silenceEnds row) s

/-! ## Clearing (R167, R168) -/

/-- A returned row of FLOW_READ_CLEAR loses its figures (R167). -/
def FlowRow.clearFigures (r : FlowRow) : FlowRow :=
  { r with stats := { r.stats with offsets := none, outside := 0, breach := false } }

/-- SOFT_RESET at the flow monitor (R168). -/
def Flow.softReset (f : Flow) : Flow :=
  { rows := mapRows f.rows fun r => { r with stats := .reset }
    enable := f.enable
    measurements := 0
    shorts := 0
    silences := 0 }

end Sys2Proof.Machine
end

