-- ==== Sys2Proof/Machine/Ports.lean ====
section
/-! DEFINITION. Ports and classifiers: links coming up and going down, start markers, reception, classification,
admission, and the end of a transmission (R23 to R47). -/

namespace Sys2Proof.Machine

open Sys2Proof.Config

/-! ## Links (R23, R24, R38, R39, R43, R49, R81) -/

/-- The port is UP at its speed, receiving and sending nothing yet. -/
def PortState.comeUp (speed : Speed) (p : PortState) : PortState :=
  { p with up := true, speed := speed, receiving := none, sending := none }

/-- What a port that has just come UP begins to send: a decision point on a network-side port (R49), the held
frames on an equipment-side port (R43). -/
def State.beginSending (p : Port) (s : State) : State :=
  if p.isNet then s.decide p.path else s.driveDown p.path

/-- A link is established: the port comes UP, LINK_CHANGE is raised and selection is run (R23, R24, log 21). -/
def State.linkUp (p : Port) (speed : Speed) (s : State) : State :=
  if (s.port p).up then s
  else (((s.modPort p (·.comeUp speed)).beginSending p).raise .linkChange).runSelection

/-- LINK_UP (R23). -/
def execLinkUp (dt : Nat) (port : Port) (speed : Speed) (s : State) : Outcome := event dt (State.linkUp port speed) s

/-- The port is DOWN: a frame being received is cut and counted, a frame being sent is cut (R28, R44). -/
def PortState.goDown (p : PortState) : PortState :=
  { p with
    up := false
    receiving := none
    sending := none
    cuts := if p.receiving.isSome then bump p.cuts else p.cuts }

/-- Link loss on the network side at the path's own blocks (R44, R47, R51, R38). -/
def PathState.loseNet (p : PathState) : PathState :=
  ({ p with up := p.up.flush, queues := p.queues.empty, arb := p.arb.linkLoss } : PathState).clearRecord

/-- Link loss on the equipment side at the path's own blocks (R44, R39). -/
def PathState.loseEq (p : PathState) : PathState := { p with down := p.down.flush }

/-- A link is lost (R24, R38, R39). -/
def State.linkDown (p : Port) (s : State) : State :=
  if (s.port p).up then
    let t := (s.modPort p PortState.goDown).modPath p.path fun q => if p.isNet then q.loseNet else q.loseEq
    let u := (t.removeResidences p.path).raise .linkChange
    if p.isNet then u.loseSources p.path else u.runSelection
  else s

/-- LINK_DOWN (R24). -/
def execLinkDown (dt : Nat) (port : Port) (s : State) : Outcome := event dt (State.linkDown port) s

/-! ## Start marker (R25, R26, R59) -/

/-- The trimmed ingress timestamp and the step sum of now. -/
def State.ingressStamp (p : Port) (s : State) : Stamp := ⟨ingressTime s.instant (s.port p), s.correction.stepSum⟩

/-- A frame's start marker reaches an UP port. -/
def State.startMarker (p : Port) (s : State) : State :=
  if (s.port p).up then s.modPort p fun q => { q with receiving := some (s.ingressStamp p) } else s

/-- INGRESS_START_MARKER (R25). -/
def execIngressStartMarker (dt : Nat) (port : Port) (s : State) : Outcome := event dt (State.startMarker port) s

/-! ## Classification (R29 to R36) -/

/-- In lo to hi inclusive; empty when lo lies above hi (R34). -/
def inRange (lo hi v : Nat) : Bool := lo ≤ v && v ≤ hi

/-- Whether the kind and direction of a message are marked (R34). -/
def ScxBody.marked (b : ScxBody) (down : Bool) : Bool :=
  match b with
  | .beacon _ => down
  | .detail _ => down
  | .probe => !down
  | .offer _ => false
  | .reply .. => false

/-- The correction mark of a message that passes on (R34). -/
def Classifier.marks (c : Classifier) (m : Scx) (down : Bool) : Bool :=
  inRange c.windowLow c.windowHigh m.domain && !inRange c.opaqueLow c.opaqueHigh m.domain && m.body.marked down

def ScxBody.isTimeMessage : ScxBody → Bool
  | .offer _ => true
  | .beacon _ => true
  | .detail _ => true
  | _ => false

/-- An OWN REPLY of a path (R32). -/
def State.isOwnReply (s : State) (p : Path) (m : Scx) : Bool :=
  match m.body with
  | .reply _ requester _ => requester == s.identity p
  | _ => false

/-- A LISTENED message (R33). -/
def State.isListened (s : State) (m : Scx) : Bool :=
  m.body.isTimeMessage && m.domain == s.classifier.listenDomain && m.sender != s.identity .a && m.sender != s.identity .b

/-- A frame of the control frame type addressed to the part (R30, R31). -/
def State.isControl (s : State) (f : List Byte) : Bool :=
  let e := readFrame f
  e.etype == controlType && !e.stacked && e.dst == s.ctl.station

/-- The datagram of a frame that an enabled flow row matches (R36). -/
def State.mediaOf (s : State) (p : Port) (f : List Byte) (stamp : Stamp) : Option MediaCopy :=
  (frameMedia f stamp).filter fun m => (s.flow.matching p m).isSome

/-- The kind of a frame, by the first test of R30 it meets. -/
def State.kindOf (s : State) (p : Port) (f : List Byte) (stamp : Stamp) : Kind :=
  if s.isControl f then if p.isNet then .control else .refusedControl
  else
    match frameScx f with
    | some m =>
      if p.isNet then
        if s.isOwnReply p.path m then .ownReply else if s.isListened m then .listened else .passingScx
      else if m.body.isTimeMessage then .foreignTime
      else .passingScx
    | none => if (s.mediaOf p f stamp).isSome then .media else .through

/-- A version 1 frame of the SCX type that is not well formed (R29). -/
def isScxMalformed (f : List Byte) : Bool :=
  let e := readFrame f
  e.etype == scxType && !e.stacked && !e.payload.isEmpty && scxVersion e.payload == 1 && !scxWellFormed e.payload

def State.countClassified (s : State) (p : Path) (f : ClassifierCounters → ClassifierCounters) : State :=
  s.modPath p fun q => { q with classified := f q.classified }

/-! ## Handing on (R31 to R33, R36, R37, R42, R169) -/

/-- A copy of a LISTENED message joins its listener's inbox (R33, log 8). -/
def Inbox.listen (b : Inbox) (c : ScxCopy) : Inbox :=
  match c.msg.body with
  | .offer _ => { b with offers := b.offers ++ [c] }
  | .beacon _ => { b with beacons := b.beacons ++ [c] }
  | .detail _ => { b with details := b.details ++ [c] }
  | .reply .. => { b with replies := b.replies ++ [c] }
  | .probe => b

/-- A through buffer refuses or admits a frame; the flag says that it was a full drop (R42). -/
def ThroughBuffer.offer (b : ThroughBuffer) (egressUp : Bool) (f : HeldFrame) : ThroughBuffer × Bool :=
  if egressUp then
    if b.hasRoom f.bytes then (b.admitFrame f, false) else ({ b with fullDrops := bump b.fullDrops }, true)
  else ({ b with linkDrops := bump b.linkDrops }, false)

/-- A frame from a network-side port is handed to the downstream buffer (R37, R42, R43). -/
def State.handDown (p : Path) (f : HeldFrame) (s : State) : State :=
  let r := (s.path p).down.offer (s.path p).eq.up f
  ((s.modPath p fun q => { q with down := r.1 }).driveDown p).raiseIf r.2 .throughDrop

/-- A frame from an equipment-side port is handed to the upstream buffer; THROUGH becomes pending when the buffer
held no frame (R37, R42, R49). -/
def State.handUp (p : Path) (f : HeldFrame) (s : State) : State :=
  let q := s.path p
  let r := q.up.offer q.net.up f
  let q' : PathState := { q with up := r.1 }
  let q'' := if q.up.frames.isEmpty then q'.becamePending s.instant .through else q'
  (s.modPath p fun _ => q'').raiseIf r.2 .throughDrop

/-- A frame that passes on (R37). -/
def State.passOn (p : Port) (f : HeldFrame) (s : State) : State :=
  if p.isNet then s.handDown p.path f else s.handUp p.path f

/-- A CONTROL frame is handed to the control unit (R31, R169, log 10). -/
def State.handControl (p : Path) (f : List Byte) (s : State) : State :=
  let frame : ControlFrame := ⟨p, f⟩
  match s.ctl.executing with
  | none => s.modControl fun c => { c with executing := some ⟨frame, false, [], [], 0⟩ }
  | some _ =>
    match s.ctl.waiting.get p with
    | none => s.modControl fun c => { c with waiting := c.waiting.set p (some ⟨frame, s.osc⟩) }
    | some _ =>
      (s.modControl fun c => { c with count := { c.count with overruns := bump c.count.overruns } }).raise .mgmtDrop

/-- A copy of the message of a frame, when it holds one, joins the inbox of its path. -/
def State.copyScx (p : Path) (f : List Byte) (stamp : Stamp) (s : State) : State :=
  match frameScx f with
  | none => s
  | some m => s.modInbox p fun b => b.listen ⟨m, (readFrame f).src, stamp⟩

/-- The mark a frame that passes on carries (R34). -/
def State.markOf (s : State) (p : Port) (f : List Byte) : Bool :=
  (frameScx f).any fun m => s.classifier.marks m p.isNet

/-- A sound frame is classified and handed on (R30 to R37). -/
def State.classified (p : Port) (f : List Byte) (stamp : Stamp) (s : State) : State :=
  let kind := s.kindOf p f stamp
  let held : HeldFrame := ⟨f, kind, s.markOf p f, stamp⟩
  match kind with
  | .control => (s.countClassified p.path fun c => { c with controlTaken := bump c.controlTaken }).handControl p.path f
  | .refusedControl =>
    (s.countClassified p.path fun c => { c with controlRefused := bump c.controlRefused }).raise .mgmtDrop
  | .ownReply => s.copyScx p.path f stamp
  | .listened => (s.copyScx p.path f stamp).passOn p held
  | .passingScx => s.passOn p held
  | .foreignTime =>
    let t := (s.countClassified p.path fun c => { c with foreignTime := bump c.foreignTime }).raise .foreignTime
    if s.classifier.foreignBlock then
      t.countClassified p.path fun c => { c with foreignDrops := bump c.foreignDrops }
    else t.passOn p held
  | .media =>
    match s.mediaOf p f stamp with
    | some m => (s.modInbox p.path fun b => b.setMedia p.isNet (b.media p.isNet ++ [m])).passOn p held
    | none => s.passOn p held
  | .through =>
    (if isScxMalformed f then
      s.countClassified p.path fun c => { c with scxMalformed := bump c.scxMalformed }
    else s).passOn p held

/-! ## Reception (R28) -/

/-- The checks of R28 on a whole frame, with the counter each raises; none when it is sound (log 22). -/
def receiveDrop (f : List Byte) : Option (PortState → PortState) :=
  if checkOk f = false then some fun q => { q with checkDrops := bump q.checkDrops }
  else if f.length < minFrame then some fun q => { q with checkDrops := bump q.checkDrops }
  else if maxFrame < f.length then some fun q => { q with oversize := bump q.oversize }
  else none

/-- The end of the frame being received arrives at an UP port (log 23). -/
def State.frameReceived (p : Port) (f : List Byte) (s : State) : State :=
  match (s.port p).up, (s.port p).receiving with
  | true, some stamp =>
    let t := s.modPort p fun q => { q with receiving := none }
    match receiveDrop f with
    | some drop => t.modPort p drop
    | none => (t.modPort p fun q => { q with received := bump q.received }).classified p f stamp
  | _, _ => s

/-- FRAME_RECEIVED (R28). -/
def execFrameReceived (dt : Nat) (port : Port) (frame : List Byte) (s : State) : Outcome :=
  event dt (State.frameReceived port frame) s

/-! ## The end of a transmission (R43, R45, R46, R49) -/

/-- The last byte of the frame on an equipment-side port has left (R43). -/
def PathState.sentEq (p : PathState) : PathState :=
  { p with
    eq := { p.eq with sending := none, transmitted := bump p.eq.transmitted }
    down := p.down.dropHead }

/-- The transmission under way on a port ends, and the next one begins (R43, R49, log 24). -/
def State.transmitEnd (p : Port) (s : State) : State :=
  match (s.port p).sending with
  | none => s
  | some x => (s.modPath p.path fun q => if p.isNet then q.sentNet x.source else q.sentEq).beginSending p

/-- TRANSMIT_END (R43). -/
def execTransmitEnd (dt : Nat) (port : Port) (s : State) : Outcome := event dt (State.transmitEnd port) s

end Sys2Proof.Machine
end

