-- ==== Sys2Proof/Machine/Rows.lean ====
section
/-! DEFINITION. What reads show: the bytes of table rows and capture records (R92, R127, R140, R143, R167, R183,
R187). -/

namespace Sys2Proof.Machine

open Sys2Proof.Config

/-- One byte holding a small number. -/
def byteOf (v : Nat) : Byte := BitVec.ofNat 8 v

/-! ## Codes, in the order the owning tables list the values (R183, log 13) -/

def LabelMode.code : LabelMode → Nat
  | .off => 0
  | .ndf => 1
  | .df => 2

def GenCondition.code : GenCondition → Nat
  | .disabled => 0
  | .running => 1
  | .exhausted => 2

def RealignCause.code : RealignCause → Nat
  | .none => 0
  | .reset => 1
  | .write => 2
  | .step => 3
  | .setTime => 4
  | .command => 5

def LineMode.code : LineMode → Nat
  | .static => 0
  | .idle => 1
  | .pulse => 2
  | .square => 3
  | .oneshot => 4

def Level.code : Level → Nat
  | .active => 0
  | .inactive => 1

def OneShot.code : OneShot → Nat
  | .armed => 0
  | .done => 1

def EdgeSelect.code : EdgeSelect → Nat
  | .none => 0
  | .rising => 1
  | .falling => 2
  | .both => 3

def EdgeDir.code : EdgeDir → Nat
  | .rising => 0
  | .falling => 1

def FlowState.code : FlowState → Nat
  | .idle => 0
  | .active => 1
  | .silent => 2

def EntryState.code : EntryState → Nat
  | .new => 0
  | .qualified => 1
  | .lost => 2

/-! ## CADENCE (R127, R140) -/

/-- An edge instant in whole nanoseconds, shown as a timescale value. -/
def putInstant (t : Int) : List Byte := putUnits (t * unitsPerNs)

def putInstant? : Option Int → List Byte
  | none => noneBytes 12
  | some t => putInstant t

def Label.bytes (l : Label) : List Byte := [byteOf l.hours, byteOf l.minutes, byteOf l.seconds, byteOf l.frames]

def Label.bytes? : Option Label → List Byte
  | none => noneBytes 4
  | some l => l.bytes

/-- The label the next edge will carry (R140). -/
def Generator.nextLabel (g : Generator) : Option Label :=
  match g.nextEdge, g.label with
  | some (k, _, _), some l =>
    match l.jamEdge with
    | none => none
    | some j => some (l.math.label (l.countOf j k))
  | _, _ => none

/-- The configured part of a CADENCE row: offsets 0 to 15. -/
def GenConfig.bytes (c : GenConfig) : List Byte :=
  [byteOf (yesNo c.enabled), byteOf c.labelMode.code, 0, 0] ++ putNat 4 c.n ++ putNat 2 c.d ++ [0, 0] ++ putInt 4 c.phi

/-- The running part: offsets 16 to 75. A DISABLED row shows none for its edge fields and constants (R127). -/
def Generator.runningBytes (g : Generator) : List Byte :=
  let off := g.condition == .disabled
  [byteOf g.condition.code, byteOf g.cause.code, 0, 0] ++
    putInt? 8 (if off then none else g.next) ++
    putInstant? (if off then none else g.instant) ++
    putNat? 4 (if off then none else g.remainder) ++
    putNat? 4 (if off then none else some g.gap) ++
    putNat? 4 (if off then none else some g.gapRemainder) ++
    putInt? 8 (if off then none else g.last.map (·.index)) ++
    putInstant? (if off then none else g.last.map (·.instant)) ++
    putNat 4 g.realigns

/-- The label part: offsets 76 to 139. An unlabelled row shows none but for its counts, and a mark of a label
that a labelled row does not have is clear (R140, log 33). A row EXHAUSTED after its last edge shows the label state that
it keeps (R139, log 53). -/
def Generator.labelBytes (g : Generator) : List Byte :=
  let shown := g.nextLabel
  (match g.label with
    | none => noneBytes 2 ++ [0, 0] ++ noneBytes 4 ++ noneSigned 8 ++ noneSigned 8 ++ noneSigned 2 ++ [0, 0] ++
        noneSigned 4 ++ noneBytes 4 ++ noneSigned 8 ++ noneBytes 4 ++ noneBytes 4 ++ noneBytes 4
    | some l =>
      let marks := (if l.last.any (·.label.drop) then 1 else 0) + (if shown.any (·.drop) then 2 else 0)
      [byteOf l.math.base, byteOf marks, 0, 0] ++ putNat 4 l.math.perDay ++ putInt? 8 l.jamEdge ++ putInt? 8 l.nextJam ++
        putInt 2 l.utc ++ [0, 0] ++ putInt 4 l.zone ++ putNat 4 l.jam ++
        putInt? 8 (l.last.map (·.index)) ++ putNat? 4 (l.last.map (·.count)) ++ Label.bytes? (l.last.map (·.label)) ++
        Label.bytes? shown) ++
  putNat 4 g.wraps ++ putNat 4 g.jams

/-- A CADENCE row, 140 bytes. -/
def Generator.bytes (g : Generator) : List Byte := g.config.bytes ++ g.runningBytes ++ g.labelBytes

/-! ## FLOW (R167) -/

def FlowConfig.bytes (c : FlowConfig) : List Byte :=
  [byteOf (yesNo c.enabled), byteOf c.paths.code, byteOf c.dirs.code, byteOf c.position] ++ putBits 4 c.group ++
    putBits 2 c.port ++ putNat 2 c.silence ++ putNat 4 c.rate ++ putInt 4 c.offset ++ putInt 4 c.lo ++ putInt 4 c.hi

def FlowStats.bytes (t : FlowStats) : List Byte :=
  [byteOf t.state.code, byteOf (yesNo t.offsets.isSome), byteOf (yesNo t.breach), 0] ++ putNat 4 t.packets ++
    putInt? 4 (t.offsets.map (·.last)) ++ putInt? 4 (t.offsets.map (·.min)) ++ putInt? 4 (t.offsets.map (·.max)) ++
    putNat 4 t.outside ++ putNat? 4 (t.timer.map (· / unitsPerMs))

/-- A FLOW row, 56 bytes. -/
def FlowRow.bytes (r : FlowRow) : List Byte := r.config.bytes ++ r.stats.bytes

/-! ## SOURCE (R92) -/

def bitIf (b : Bool) (n : Nat) : Nat := if b then 2 ^ n else 0

/-- Status bits of a SOURCE row (R187). -/
def SourceEntry.status (e : SourceEntry) (selected : Bool) : Nat :=
  bitIf e.mute 0 + bitIf e.barred 1 + bitIf selected 2 + bitIf e.offer.house.isSome 3 +
    bitIf (delayEstimate e.window).isSome 4

/-- Offer flags as the message carries them (chapter 12). -/
def OfferBody.flagBits (o : OfferBody) : Nat := bitIf o.timeTraceable 0 + bitIf o.freqTraceable 1 + bitIf o.utcValid 2

/-- The Offer deadline or, for LOST, the purge time: what remains, in whole milliseconds (R92). -/
def Sources.remaining (q : Sources) (e : SourceEntry) : Nat :=
  (if e.state = .lost then e.purgeTime - e.sinceLost else q.offerDeadline e - e.sinceOffer) / unitsPerMs

/-- A SOURCE row in use, 88 bytes, its in-use byte 1 (log 46); an absent house extension shows none (log 30), and so
does an absent estimate, in a field of signed correction units (R183). -/
def Sources.entryBytes (q : Sources) (i : Fin 16) (e : SourceEntry) : List Byte :=
  [1, byteOf (Path.code e.path), byteOf e.state.code, byteOf (e.status (q.selected == some i))] ++ putBits 8 e.sender ++
    putBits 6 e.station ++ putNat 1 e.offer.tier ++ putNat 1 e.offer.accuracy ++ putNat 2 e.offer.stability ++
    putNat 1 e.offer.steps ++ [byteOf e.offer.flagBits] ++ putInt 2 e.offer.utc ++ putInt 1 e.offerExp ++
    putInt? 1 e.beaconExp ++ putBits 8 e.offer.grand ++ putInt? 4 (e.offer.house.map (·.zone)) ++
    putNat? 4 (e.offer.house.map (·.jam)) ++ putNat 1 e.count ++ putNat? 1 (e.ruleRow.map (·.val)) ++
    putNat 1 e.rank ++ [0] ++ putUnits e.lastOffer ++ putUnits? e.lastBeacon ++ putNat 4 (q.remaining e) ++
    putNat? 4 (e.sinceBeacon.map fun t => (e.muteTime - t) / unitsPerMs) ++
    putInt? 8 (delayEstimate e.window)

def Sources.rowBytes (q : Sources) (i : Fin 16) : List Byte :=
  match q.table[i] with
  | none => zeros 88
  | some e => q.entryBytes i e

/-! ## RULES, MANAGERS, RESIDENCE, LINES -/

/-- A RULES row, 16 bytes; no rank of BAR and no identity of WILDCARD is kept (log 28). -/
def ruleBytes : Option SourceRule → List Byte
  | none => zeros 16
  | some r =>
    let act : Nat × Nat := match r.action with
      | .prefer rank => (0, rank)
      | .bar => (1, 0)
    [1, byteOf r.paths.code, byteOf act.1, byteOf act.2, (if r.sender.isSome then 0 else 1), 0, 0, 0] ++
      putBits 8 (r.sender.getD 0)

/-- A MANAGERS row, 8 bytes. -/
def managerBytes : Option Station → List Byte
  | none => zeros 8
  | some a => [1, 0] ++ putBits 6 a

/-- A RESIDENCE row, 40 bytes. -/
def residenceBytes : Option ResidenceEntry → List Byte
  | none => zeros 40
  | some e =>
    [1, byteOf (Path.code e.path), byteOf e.domain, 0] ++ putNat 2 e.sequence ++ [0, 0] ++ putBits 8 e.sender ++
      putInt 8 e.residence ++ putTime e.created ++ putNat 4 (e.age / (1000 * unitsPerNs))

/-- An output row, 24 bytes. -/
def OutputLine.bytes (l : OutputLine) : List Byte :=
  [0, byteOf l.mode.code, byteOf l.cadence.val, byteOf (offOn l.activeLow)] ++ putNat 2 l.divisor ++ putNat 2 l.phase ++
    putNat 4 l.width ++ [byteOf (yesNo l.muted), byteOf l.level.code, 0, 0, byteOf l.state.code] ++
    putNat? 1 (l.oneShot.map (·.code)) ++ [0, 0] ++ putNat? 4 (l.pulseEnd.map (· / unitsPerNs))

/-- An input row, 24 bytes; present level HIGH 0, LOW 1. -/
def InputLine.bytes (l : InputLine) : List Byte :=
  [1, byteOf l.select.code] ++ putNat? 1 (l.bind.map (·.val)) ++ [0, byteOf (yesNo l.high)] ++ zeros 19

/-- A capture record, 20 bytes; phase present is 1 (log 49). -/
def Capture.bytes (c : Capture) : List Byte :=
  [byteOf c.line.val, byteOf (EdgeDir.code c.edge), byteOf c.state.code, (if c.phase.isSome then 1 else 0)] ++ putTime c.time ++
    putInt 4 (c.phase.getD 0)

/-! ## Any row -/

/-- Bytes of a row of a table (R187). -/
def Table.rowSize : Table → Nat
  | .cadence => 140
  | .flow => 56
  | .source => 88
  | .rules => 16
  | .managers => 8
  | .residence => 40
  | .lines => 24

/-- The row of a table as READ_ROWS shows it (R173, R187); empty past the table's end. -/
def State.rowBytes (s : State) (t : Table) (i : Nat) : List Byte :=
  match t with
  | .cadence => if h : i < 16 then (s.gens[i]).bytes else []
  | .flow => if h : i < 64 then (s.flow.rows[i]).bytes else []
  | .source => if h : i < 16 then s.sources.rowBytes ⟨i, h⟩ else []
  | .rules => if h : i < 8 then ruleBytes s.sources.rules[i] else []
  | .managers => if h : i < 4 then managerBytes s.ctl.managers[i] else []
  | .residence => if h : i < 32 then residenceBytes s.correction.rows[i] else []
  | .lines =>
    if h : i < 8 then (s.lines.outputs[i]).bytes
    else if h : i - 8 < 4 then (s.lines.inputs[i - 8]).bytes else []

end Sys2Proof.Machine
end

