-- ==== Sys2Proof/Machine/Items.lean ====
section
/-! DEFINITION. Items: what READ_ITEM shows of each, and what a write of each does (R172 and the item tables of every
chapter). -/

namespace Sys2Proof.Machine

open Sys2Proof.Config

/-! ## Reading (R172, R183) -/

/-- An unsigned item value: 8 bytes, right-aligned (R183). -/
def itemNat (v : Nat) : List Byte := putNat 8 v

/-- A signed item value. -/
def itemInt (v : Int) : List Byte := putInt 8 v

/-- An item value that may be none (R183). -/
def itemNat? (v : Option Nat) : List Byte := putNat? 8 v

/-- Holdover remaining in whole seconds (item 120, R14). -/
def HoldoverTimer.seconds : HoldoverTimer → Nat
  | .stopped => 0
  | .running left => left / unitsPerSec
  | .held left => left / unitsPerSec

/-- Items 100 to 121. -/
def Servo.items (v : Servo) : List (List Byte) :=
  [putTime v.time, itemNat v.state.code, itemNat v.stage, itemInt v.trim, itemInt v.acc, itemNat (yesNo v.hasLocked),
    itemInt v.lastOffset, itemNat v.inWindow, itemNat v.outlierCount, itemNat v.quiet, itemNat v.startStage,
    itemNat v.finalStage, itemNat v.stepThreshold, itemNat (offOn v.stepGuard), itemNat v.outlierThreshold,
    itemNat v.outlierLimit, itemNat v.trimLimit, itemNat v.quietCode, itemNat v.holdoverBudget,
    itemNat (offOn v.lenient), itemNat v.timer.seconds, itemNat (yesNo v.lockIndication)]

/-- Items 130 to 136. -/
def ServoCounters.items (c : ServoCounters) : List (List Byte) :=
  [c.offsetsReceived, c.quietDiscards, c.stepsTaken, c.stepsRefused, c.outliers, c.outlierExits,
    c.holdoverExpiries].map itemNat

/-- Speed in Gb/s (log 39). -/
def speedGb : Speed → Nat
  | .g10 => 10
  | .g25 => 25

/-- Items 200 to 207. -/
def PathState.portItems (p : PathState) : List (List Byte) :=
  [itemInt p.net.ingressTrim, itemInt p.net.egressTrim, itemInt p.eq.ingressTrim, itemInt p.eq.egressTrim,
    itemNat (yesNo p.net.up), itemNat (speedGb p.net.speed), itemNat (yesNo p.eq.up), itemNat (speedGb p.eq.speed)]

def PortState.counters (p : PortState) : List Nat := [p.received, p.transmitted, p.checkDrops, p.oversize, p.cuts]

/-- Items 220 to 234. -/
def PathState.portCounters (p : PathState) : List (List Byte) :=
  (p.net.counters ++ p.eq.counters ++ [p.classified.scxMalformed, p.classified.controlTaken,
    p.classified.controlRefused, p.classified.foreignTime, p.classified.foreignDrops]).map itemNat

/-- Items 300 to 302. -/
def Arbiter.items (a : Arbiter) : List (List Byte) :=
  [a.throughClass, a.timeClass, a.mgmtClass].map fun c => itemNat c.code

/-- Items 310 to 315. -/
def PathState.bufferItems (p : PathState) : List (List Byte) :=
  [p.down.frames.length, p.down.segmentsUsed, p.up.frames.length, p.up.segmentsUsed,
    (if p.queues.time.isSome then 1 else 0), p.queues.mgmt.length].map itemNat

/-- Items 320 to 334. -/
def PathState.bufferCounters (p : PathState) : List (List Byte) :=
  [p.down.admitted, p.down.fullDrops, p.down.linkDrops, p.up.admitted, p.up.fullDrops, p.up.linkDrops,
    p.queues.timeSent, p.queues.mgmtSent, p.queues.mgmtDrops, p.queues.linkDiscards, p.arb.throughServed,
    p.arb.timeServed, p.arb.mgmtServed, p.arb.skips, p.arb.idle].map itemNat

/-- Items 400 to 406. -/
def State.correctionItems (s : State) : List (List Byte) :=
  [itemNat s.classifier.windowLow, itemNat s.classifier.windowHigh, itemNat s.classifier.opaqueLow,
    itemNat s.classifier.opaqueHigh, itemNat s.correction.lifetime, itemNat (rowsInUse s.correction.rows),
    itemInt s.correction.stepSum]

/-- Items 420 to 428. -/
def CorrectionCounters.items (c : CorrectionCounters) : List (List Byte) :=
  [c.singleCorrected, c.probesCorrected, c.created, c.duplicates, c.evictions, c.orphans, c.matched, c.unmatched,
    c.saturations].map itemNat

/-- The pin mask as a set (item 508). -/
def HouseItems.pins (h : HouseItems) : Nat := bitIf h.pinUtc 0 + bitIf h.pinZone 1 + bitIf h.pinJam 2

/-- Items 500 to 508. -/
def State.sourceItems (s : State) : List (List Byte) :=
  let q := s.sources
  [itemNat s.classifier.listenDomain, itemNat q.qualCount, itemNat q.lossLimit, itemNat (Path.code q.preferred),
    itemNat (offOn q.revertive), itemInt q.house.utc, itemInt q.house.zone, itemNat q.house.jam, itemNat q.house.pins]

/-- Items 510 to 513. -/
def Sources.selectionItems (q : Sources) : List (List Byte) :=
  [itemNat? (q.selected.map (·.val)), itemNat? (q.selectedEntry.map (·.sender.toNat)),
    itemNat? (q.selectedEntry.map fun e => Path.code e.path), itemNat (rowsInUse q.table)]

/-- Items 520 to 528. -/
def SourceCounters.items (c : SourceCounters) : List (List Byte) :=
  [c.offersTaken, c.created, c.qualifications, c.losses, c.revivals, c.purges, c.muteEntries, c.replacements,
    c.tableFull].map itemNat

/-- Condition of the outstanding Probe: NONE, QUEUED, SENT (item 603). -/
def Measure.condition (m : Measure) : Nat :=
  match m.record with
  | none => 0
  | some r => if r.departure.isSome then 2 else 1

/-- Items 600 to 607. -/
def Measure.items (m : Measure) : List (List Byte) :=
  [itemInt m.exponent, itemNat m.windowLength, itemNat m.nextSequence, itemNat m.condition,
    itemNat? (m.record.map (·.target.toNat)), itemNat? (m.record.map (·.sequence)),
    putUnits? (m.record.bind (·.departure)), itemNat? (m.lead.map (·.toNat))]

/-- Items 620 to 635. -/
def MeasureCounters.items (c : MeasureCounters) : List (List Byte) :=
  [c.probesQueued, c.probesSkipped, c.probesLost, c.samples, c.noSample, c.strayReplies, c.unusable, c.anomalies,
    c.completed, c.abandoned, c.detailsIgnored, c.withoutEntry, c.stale, c.badOrigins, c.produced,
    c.withheld].map itemNat

/-- Items 1000 to 1011. -/
def Control.items (c : Control) : List (List Byte) :=
  [itemNat c.station.toNat, itemNat (identityOf c.station .a).toNat, itemNat (identityOf c.station .b).toNat,
    itemNat c.profile.toNat, itemNat c.select.code, itemNat? (c.destination.map (·.toNat)), itemNat c.noticePath.code,
    itemNat c.mask.toNat, itemNat c.holdoff, itemNat c.flags.toNat,
    zeros 5 ++ putNat 1 c.table.code ++ putNat 2 c.row, itemNat c.sequence]

/-- Items 1020 to 1025. -/
def ControlCounters.items (c : ControlCounters) : List (List Byte) :=
  [c.executed, c.rejects, c.malformed, c.overruns, c.notices, c.notRun].map itemNat

/-- The item tables of all blocks: first number, values in order. Path-scoped items show the path that path select
names, path A for BOTH (R172). -/
def State.items (s : State) : List (Nat × List (List Byte)) :=
  let p := s.path s.ctl.select.readPath
  [(100, s.servo.items), (130, s.servo.count.items), (200, p.portItems), (210, [itemNat (offOn s.classifier.foreignBlock)]),
    (220, p.portCounters), (300, p.arb.items), (310, p.bufferItems), (320, p.bufferCounters), (400, s.correctionItems),
    (420, p.correction.items), (500, s.sourceItems), (510, s.sources.selectionItems), (520, p.sources.items),
    (529, [itemNat s.sources.changes]), (600, p.measure.items), (620, p.measure.count.items),
    (900, [itemNat (offOn s.flow.enable), itemNat s.flow.enabledRows]),
    (910, [s.flow.measurements, s.flow.shorts, s.flow.silences].map itemNat), (1000, s.ctl.items),
    (1020, s.ctl.count.items)]

/-- The value of an item; none for a number that is no item (R172). -/
def State.itemValue (s : State) (n : Nat) : Option (List Byte) :=
  s.items.findSome? fun b => if b.1 ≤ n then b.2[n - b.1]? else none

/-! ## Writing -/

/-- A writable item (the item tables). -/
def isWritable (n : Nat) : Bool :=
  (110 ≤ n && n ≤ 119) || (200 ≤ n && n ≤ 203) || n == 210 || (300 ≤ n && n ≤ 302) || (400 ≤ n && n ≤ 404) ||
    (500 ≤ n && n ≤ 508) || n == 600 || n == 601 || n == 900 || (1004 ≤ n && n ≤ 1008)

/-- A write is refused with BAD_VALUE unless a value is read from it. -/
def storeIf {α : Type} (v : Option α) (f : α → State → State) (s : State) : State × Result :=
  match v with
  | none => (s, .badValue)
  | some x => (f x s, .ok)

/-- An unsigned value within a range, or none. -/
def within (lo hi : Nat) (v : BitVec 64) : Option Nat := if lo ≤ v.toNat ∧ v.toNat ≤ hi then some v.toNat else none

/-- A signed value within a range, or none. -/
def withinInt (lo hi : Int) (v : BitVec 64) : Option Int := if lo ≤ v.toInt ∧ v.toInt ≤ hi then some v.toInt else none

/-- A write reaches every path that path select names (R172). -/
def State.eachSelected (f : Path → State → State) (s : State) : State :=
  let t := if s.ctl.select.names .a then f .a s else s
  if s.ctl.select.names .b then f .b t else t

def State.modSelectedPort (net : Bool) (f : PortState → PortState) (s : State) : State :=
  s.eachSelected (fun p t => t.modPath p fun q => q.modPort net f) 

/-! ### Servo items (R20, R15) -/

/-- A written trim limit is clamped and pulls the accumulator and the trim within it (R20). -/
def Servo.setTrimLimit (v : Nat) (r : Servo) : Servo :=
  let l := clampNat 1 1600000 v
  { r with trimLimit := l, acc := clampInt (-l) l r.acc, trim := clampInt (-l) l r.trim }

def State.writeTrimLimit (v : BitVec 64) (s : State) : State × Result := (s.modServo (·.setTrimLimit v.toNat), .ok)

/-- A written lock indication mode; the indication is derived again (R15, R16). -/
def State.writeLockMode (v : BitVec 64) (s : State) : State × Result :=
  storeIf (readOffOn v.toNat) (fun m t => t.changeServo fun r => { r with lenient := m }) s

/-- Items 110 to 115, 117 and 118 (R20). A quiet period code above 7, which R20 does not name, is refused as 4 to 7 are
(log 52). -/
def State.writeServoItem (n : Nat) (v : BitVec 64) (s : State) : State × Result :=
  match n with
  | 110 => storeIf (within 0 5 v) (fun x t => t.modServo fun r => { r with startStage := x }) s
  | 111 => storeIf (within 0 5 v) (fun x t => t.modServo fun r => { r with finalStage := x }) s
  | 112 => (s.modServo fun r => { r with stepThreshold := clampNat 1000 1000000000 v.toNat }, .ok)
  | 113 => storeIf (readOffOn v.toNat) (fun x t => t.modServo fun r => { r with stepGuard := x }) s
  | 114 => (s.modServo fun r => { r with outlierThreshold := clampNat 100 1000000 v.toNat }, .ok)
  | 115 => (s.modServo fun r => { r with outlierLimit := clampNat 1 15 v.toNat }, .ok)
  | 117 => storeIf (within 0 3 v) (fun x t => t.modServo fun r => { r with quietCode := x }) s
  | _ => (s.modServo fun r => { r with holdoverBudget := clampNat 1 65535 v.toNat }, .ok)

/-! ### Ports, classifiers, classes (R27, R34, R48) -/

/-- Items 200 to 203 (R27). -/
def State.writeTrim (n : Nat) (v : BitVec 64) (s : State) : State × Result :=
  storeIf (withinInt (-32767) 32767 v) (fun x t =>
    match n with
    | 200 => t.modSelectedPort true fun p => { p with ingressTrim := x }
    | 201 => t.modSelectedPort true fun p => { p with egressTrim := x }
    | 202 => t.modSelectedPort false fun p => { p with ingressTrim := x }
    | _ => t.modSelectedPort false fun p => { p with egressTrim := x }) s

def State.modClassifier (f : Classifier → Classifier) (s : State) : State := { s with classifier := f s.classifier }

/-- Items 210, 400 to 403 and 500 (the port and classification item table). -/
def State.writeClassifier (n : Nat) (v : BitVec 64) (s : State) : State × Result :=
  match n with
  | 210 => storeIf (readOffOn v.toNat) (fun x t => t.modClassifier fun c => { c with foreignBlock := x }) s
  | 400 => storeIf (within 0 127 v) (fun x t => t.modClassifier fun c => { c with windowLow := x }) s
  | 401 => storeIf (within 0 127 v) (fun x t => t.modClassifier fun c => { c with windowHigh := x }) s
  | 402 => storeIf (within 0 127 v) (fun x t => t.modClassifier fun c => { c with opaqueLow := x }) s
  | 403 => storeIf (within 0 127 v) (fun x t => t.modClassifier fun c => { c with opaqueHigh := x }) s
  | _ => storeIf (within 0 127 v) (fun x t => t.modClassifier fun c => { c with listenDomain := x }) s

/-- The class a write gives a requester; MASKED is refused for THROUGH (R48). -/
def classWrite (r : Requester) (v : BitVec 64) : Option ArbClass :=
  match r, readClass v.toNat with
  | .through, some .masked => none
  | _, c => c

/-- A path's requester takes a class; one unmasked with a frame waiting becomes pending (R48, R49). -/
def PathState.setClass (i : Instant) (r : Requester) (c : ArbClass) (p : PathState) : PathState :=
  let q := { p with arb := p.arb.setClass r c }
  if p.isPending r then q else q.becamePending i r

/-- Items 300 to 302 (R48). -/
def State.writeClass (r : Requester) (v : BitVec 64) (s : State) : State × Result :=
  storeIf (classWrite r v) (fun c t => t.eachSelected fun p u => u.modPath p (·.setClass u.instant r c)) s

/-! ### Correction, sources, house items (R66, R90, R91) -/

def State.writeLifetime (v : BitVec 64) (s : State) : State × Result := (s.setLifetime v.toNat, .ok)

def State.writeQualCount (v : BitVec 64) (s : State) : State × Result :=
  (s.modSources fun q => { q with qualCount := clampNat 1 8 v.toNat }, .ok)

def State.writeLossLimit (v : BitVec 64) (s : State) : State × Result := (s.setLossLimit v.toNat, .ok)

def State.writePreferred (v : BitVec 64) (s : State) : State × Result :=
  storeIf (readPath v.toNat) (fun p t => (t.modSources fun q => { q with preferred := p }).runSelection) s

def State.writeRevertive (v : BitVec 64) (s : State) : State × Result :=
  storeIf (readOffOn v.toNat) (fun b t => (t.modSources fun q => { q with revertive := b }).runSelection) s

/-- A written house item (R90). -/
def State.writeHouse (i : HouseItem) (v : BitVec 64) (s : State) : State × Result :=
  match i with
  | .utcOffset => storeIf (withinInt (-32768) 32767 v) (fun x t => t.setHouse { t.sources.house with utc := x }) s
  | .zoneOffset =>
    storeIf ((withinInt (-50400) 50400 v).filter (· % 900 == 0))
      (fun x t => t.setHouse { t.sources.house with zone := x }) s
  | .jamTime => storeIf (within 0 86399 v) (fun x t => t.setHouse { t.sources.house with jam := x }) s

/-- The pin mask (item 508, R90). -/
def State.writePins (v : BitVec 64) (s : State) : State × Result :=
  storeIf (within 0 7 v) (fun _ t => t.modSources fun q =>
    { q with house := { q.house with
        pinUtc := v.getLsbD 0, pinZone := v.getLsbD 1, pinJam := v.getLsbD 2 } }) s

/-! ### Measurement and flow items (R108, R160) -/

def State.writeExponent (v : BitVec 64) (s : State) : State × Result :=
  (s.eachSelected fun p t => t.setProbeExponent p v.toInt, .ok)

def State.writeWindowLength (v : BitVec 64) (s : State) : State × Result :=
  (s.eachSelected fun p t => t.setWindowLength p v.toNat, .ok)

def State.writeFlowEnable (v : BitVec 64) (s : State) : State × Result :=
  storeIf (readOffOn v.toNat) State.setFlowEnable s

/-! ### Control items (R172, R176) -/

/-- A written notice destination: all ones is NONE, and keeps no pending notice (R176, R183, log 16, 38). -/
def State.writeDestination (v : BitVec 64) (s : State) : State × Result :=
  if v = BitVec.allOnes 64 then
    (s.modControl fun c => { c with destination := none, pendingMark := false, heldNotice := false }, .ok)
  else if v.toNat < 2 ^ 48 then (s.modControl fun c => { c with destination := some (v.setWidth 48) }, .ok)
  else (s, .badValue)

/-- A written notice mask; STEP and FREERUN_ENTERED cannot be masked (R176, log 16). -/
def State.writeMask (v : BitVec 64) (s : State) : State × Result :=
  if v.toNat < 2 ^ 24 ∧ v.getLsbD 0 = false ∧ v.getLsbD 1 = false then
    (s.modControl fun c => { c with mask := v.setWidth 24 }, .ok)
  else (s, .badValue)

/-- Items 1004 to 1008 (R172, R176). -/
def State.writeControlItem (n : Nat) (v : BitVec 64) (s : State) : State × Result :=
  match n with
  | 1004 => storeIf (readPathSelect v.toNat) (fun x t => t.modControl fun c => { c with select := x }) s
  | 1005 => s.writeDestination v
  | 1006 => storeIf (readPathSelect v.toNat) (fun x t => t.modControl fun c => { c with noticePath := x }) s
  | 1007 => s.writeMask v
  | _ => (s.modControl fun c => { c with holdoff := clampNat 0 10000 v.toNat }, .ok)

/-- The owning block stores, clamps or refuses a value of a writable item (R172). -/
def State.storeItem (n : Nat) (v : BitVec 64) (s : State) : State × Result :=
  match n with
  | 116 => s.writeTrimLimit v
  | 119 => s.writeLockMode v
  | 300 => s.writeClass .through v
  | 301 => s.writeClass .time v
  | 302 => s.writeClass .mgmt v
  | 404 => s.writeLifetime v
  | 501 => s.writeQualCount v
  | 502 => s.writeLossLimit v
  | 503 => s.writePreferred v
  | 504 => s.writeRevertive v
  | 505 => s.writeHouse .utcOffset v
  | 506 => s.writeHouse .zoneOffset v
  | 507 => s.writeHouse .jamTime v
  | 508 => s.writePins v
  | 600 => s.writeExponent v
  | 601 => s.writeWindowLength v
  | 900 => s.writeFlowEnable v
  | _ =>
    if n < 200 then s.writeServoItem n v
    else if n < 204 then s.writeTrim n v
    else if n < 1000 then s.writeClassifier n v
    else s.writeControlItem n v

end Sys2Proof.Machine
end

