-- ==== Sys2Proof/Machine/Reset.lean ====
section
/-! DEFINITION. Power-on, the RESET line, reset release with the profiles, and SOFT_RESET (R22, R40, R53, R72, R94,
R110, R128, R142, R157, R168, R179, R180, R181). -/

namespace Sys2Proof.Machine

open Sys2Proof.Config

/-! ## Reset values (R180) -/

/-- Every block at its reset state. What is no state of the blocks is kept: the station address set in manufacture,
the levels of the input pins (log 7), the free values read and the waiting commands. -/
def State.blocksReset (s : State) : State :=
  { State.reset with
    ctl := { Control.reset with station := s.ctl.station }
    lines := { Lines.reset with inputs := mapRows s.lines.inputs fun l => ⟨.none, none, l.high⟩ }
    free := s.free
    pending := s.pending }

/-- The part held in reset: it takes no event until release (R180). -/
def State.holdReset (s : State) : State := { s.blocksReset with inReset := true }

/-- POWER_ON (R180). -/
def execPowerOn (s : State) : Outcome := .next s.holdReset

/-- RESET_LINE_ASSERT (R180). -/
def execResetLineAssert (s : State) : Outcome := .next s.holdReset

/-! ## Profiles (R179) -/

/-- The configured parts a profile gives E0 to E3. -/
def profileGens (p : BitVec 2) : List GenConfig :=
  match p.toNat with
  | 1 => [⟨true, 25, 1, 0, .ndf⟩, ⟨true, 50, 1, 0, .off⟩, ⟨true, 48000, 1, 0, .off⟩]
  | 2 => [⟨true, 30000, 1001, 0, .df⟩, ⟨true, 60000, 1001, 0, .off⟩, ⟨true, 48000, 1, 0, .off⟩]
  | 3 => [⟨true, 25, 1, 0, .ndf⟩, ⟨true, 30000, 1001, 0, .df⟩, ⟨true, 48000, 1, 0, .off⟩, ⟨true, 1, 1, 0, .off⟩]
  | _ => []

/-- The modes a profile gives LO0 to LO3. -/
def profileModes (p : BitVec 2) : List LineMode :=
  match p.toNat with
  | 1 => [.pulse, .pulse, .square]
  | 2 => [.pulse, .pulse, .square]
  | 3 => [.pulse, .pulse, .square, .pulse]
  | _ => []

/-- A CADENCE row loaded from the profile: enabled rows are realigned at t = 0 with the cause RESET, uncounted; the
others are disabled with N = 1, D = 1, origin offset 0 and mode OFF (R128, R179). -/
def profileGen (p : BitVec 2) (g : Fin 16) : Generator :=
  match (profileGens p)[g.val]? with
  | none => .reset
  | some c =>
    { ({ Generator.reset with config := c } : Generator).realigned Sources.reset.house .reset 0 with realigns := 0 }

/-- An output row loaded from the profile (R179): on its own generator, everything else at the power-on values. -/
def profileLine (p : BitVec 2) (i : Fin 8) : OutputLine :=
  { OutputLine.reset i with mode := (profileModes p)[i.val]?.getD .idle }

/-- The latched pair, PROFILE1 then PROFILE0 (R179). -/
def profileOf (p1 p0 : Bool) : BitVec 2 := BitVec.ofBool p1 ++ BitVec.ofBool p0

/-- Reset release: every block at its reset state, straps latched, profile loaded, enabled generators realigned at
t = 0; no event is raised (R179, R180). -/
def State.release (p : BitVec 2) (s : State) : State :=
  let t := s.blocksReset
  { t with
    gens := Vector.ofFn (profileGen p)
    lines := { t.lines with outputs := Vector.ofFn (profileLine p) }
    ctl := { t.ctl with profile := p } }

/-- RESET_RELEASE, with the levels of the straps (R179, R180, log 4, 34). -/
def execResetRelease (profile1 profile0 : Bool) (s : State) : Outcome :=
  .next (s.release (profileOf profile1 profile0))

/-! ## SOFT_RESET (R181) -/

/-- R22. -/
def Servo.softReset (v : Servo) : Servo :=
  { v with
    state := .freerun
    hasLocked := false
    stage := v.startStage
    inWindow := 0
    outlierCount := 0
    quiet := 0
    timer := .stopped
    lastOffset := 0
    count := .reset }

/-- R40. -/
def PortState.clearCounters (p : PortState) : PortState :=
  { p with received := 0, transmitted := 0, checkDrops := 0, oversize := 0, cuts := 0 }

/-- R52. -/
def ThroughBuffer.clearCounters (b : ThroughBuffer) : ThroughBuffer :=
  { b with admitted := 0, fullDrops := 0, linkDrops := 0 }

/-- R52. -/
def Injection.clearCounters (q : Injection) : Injection :=
  { q with timeSent := 0, mgmtSent := 0, mgmtDrops := 0, linkDiscards := 0 }

/-- R52. -/
def Arbiter.clearCounters (a : Arbiter) : Arbiter :=
  { a with throughServed := 0, timeServed := 0, mgmtServed := 0, skips := 0, idle := 0 }

/-- R110. -/
def Measure.softReset (m : Measure) : Measure := { m with lead := none, record := none, count := .reset }

/-- What one path loses (R40, R52, R72, R93, R110). -/
def PathState.softReset (p : PathState) : PathState :=
  { net := p.net.clearCounters
    eq := p.eq.clearCounters
    inbox := p.inbox
    classified := .reset
    down := p.down.clearCounters
    up := p.up.clearCounters
    queues := p.queues.clearCounters
    arb := p.arb.clearCounters
    correction := .reset
    sources := .reset
    measure := p.measure.softReset }

/-- R72. -/
def Correction.softReset (c : Correction) : Correction := { c with rows := Vector.replicate 32 none }

/-- R94. -/
def Sources.softReset (q : Sources) : Sources :=
  { q with table := Vector.replicate 16 none, selected := none, changes := 0 }

/-- R128, R129, R142. -/
def Generator.softReset (g : Generator) : Generator := { g with realigns := 0, wraps := 0, jams := 0 }

/-- R157. -/
def Lines.softReset (l : Lines) : Lines := { l with fifo := [], overflow := 0 }

/-- R181. -/
def Control.softResetControl (c : Control) : Control :=
  { c with
    flags := 0
    timer := none
    pendingMark := false
    heldNotice := false
    sequence := 0
    softReset := false
    count := .reset }

/-- SOFT_RESET is carried out (R181). -/
def State.carryOutSoftReset (s : State) : State :=
  { s with
    servo := s.servo.softReset
    paths := s.paths.map PathState.softReset
    correction := s.correction.softReset
    sources := s.sources.softReset
    gens := mapRows s.gens Generator.softReset
    lines := s.lines.softReset
    flow := s.flow.softReset
    ctl := s.ctl.softResetControl }

end Sys2Proof.Machine
end

