-- ==== Sys2Proof/Machine/Control.lean ====
section
/-! DEFINITION. The control unit: the management commands, the command entries of a control frame, and the taking of a
control frame with its reply (R169 to R178, R181). -/

namespace Sys2Proof.Machine

open Sys2Proof.Config

/-- A result without data. -/
def bare (r : Result) : Answer := ⟨r, []⟩

/-- What a command of the control unit answers with. -/
abbrev Done := State × Answer

/-- A result code as a whole answer. -/
def asDone (x : State × Result) : Done := (x.1, bare x.2)

/-! ## Items (R172) -/

/-- READ_ITEM with `room` bytes left for data (R171, R172). -/
def State.cmdReadItem (room : Nat) (n : Nat) (s : State) : Done :=
  match s.itemValue n with
  | none => (s, bare .noItem)
  | some v => if v.length ≤ room then (s, ⟨.ok, v⟩) else (s, bare .noRoom)

/-- WRITE_ITEM (R172). -/
def State.cmdWriteItem (n : Nat) (v : BitVec 64) (s : State) : Done :=
  if (s.itemValue n).isNone then (s, bare .noItem)
  else if isWritable n then asDone (s.storeItem n v)
  else (s, bare .readOnly)

/-! ## Cursor and rows (R173) -/

/-- SET_CURSOR (R173). -/
def State.cmdSetCursor (table : Byte) (row : Nat) (s : State) : Done :=
  match readTable table with
  | none => (s, bare .badValue)
  | some t => if row < t.rows then (s.modControl fun c => { c with table := t, row := row }, bare .ok) else (s, bare .badValue)

/-- The cursor moves on by a number of rows. -/
def State.advanceCursor (n : Nat) (s : State) : State := s.modControl fun c => { c with row := c.row + n }

/-- Rows that a bulk read returns: no more than asked, than remain, or than fit after the 4-byte header (R171, R173). -/
def rowsFitting (room count left size : Nat) : Nat := min count (min left ((room - 4) / size))

/-- The header of a bulk read and its rows; nothing where not even the header fits (log 15). -/
def bulkData (room n : Nat) (rows : List Byte) : List Byte :=
  if room < 4 then [] else [byteOf n, 0, 0, 0] ++ rows

/-- READ_ROWS (R173). -/
def State.cmdReadRows (room count : Nat) (s : State) : Done :=
  let t := s.ctl.table
  let row := s.ctl.row
  if row < t.rows then
    let n := rowsFitting room count (t.rows - row) t.rowSize
    (s.advanceCursor n, ⟨.ok, bulkData room n ((List.range n).flatMap fun i => s.rowBytes t (row + i))⟩)
  else (s, bare .badValue)

/-- An accepted row write advances the cursor by 1; none is BAD_VALUE (R173). -/
def acceptRow {α : Type} (v : Option α) (f : α → State → State) (s : State) : Done :=
  match v with
  | none => (s, bare .badValue)
  | some x => ((f x s).advanceCursor 1, bare .ok)

/-- A row of CADENCE (R112, R113). -/
def State.writeCadence (i : Nat) (w : CadenceWrite) (s : State) : Done :=
  if h : i < 16 then acceptRow (checkCadence w) (State.storeCadence ⟨i, h⟩) s else (s, bare .badValue)

/-- A row of FLOW (R158). -/
def State.writeFlow (i : Nat) (w : FlowWrite) (s : State) : Done :=
  if h : i < 64 then
    match checkFlow w with
    | none => (s, bare .badValue)
    | some c =>
      if s.flow.duplicates ⟨i, h⟩ c then (s, bare .duplicate) else acceptRow (some c) (State.storeFlow ⟨i, h⟩) s
  else (s, bare .badValue)

/-- A row of RULES (R83). -/
def State.writeRule (i : Nat) (w : RuleWrite) (s : State) : Done :=
  if h : i < 8 then acceptRow (checkRule w) (State.storeRule ⟨i, h⟩) s else (s, bare .badValue)

/-- The checked content of a WRITE_ROW to MANAGERS: an address or EMPTY; in use is 1 alone (R174, R187,
log 46). -/
def checkManager (w : ManagerWrite) : Option (Option Station) :=
  match w.inUse.toNat with
  | 0 => some none
  | 1 => some (some w.station)
  | _ => none

def State.storeManager (i : Fin 4) (m : Option Station) (s : State) : State :=
  s.modControl fun c => { c with managers := c.managers.set i m }

/-- A row of MANAGERS (R174). -/
def State.writeManager (i : Nat) (w : ManagerWrite) (s : State) : Done :=
  if h : i < 4 then acceptRow (checkManager w) (State.storeManager ⟨i, h⟩) s else (s, bare .badValue)

def State.storeOutput (i : Fin 8) (l : OutputLine) (s : State) : State :=
  s.modLines fun u => { u with outputs := u.outputs.set i l }

def State.storeInput (i : Fin 4) (l : InputLine) (s : State) : State :=
  s.modLines fun u => { u with inputs := u.inputs.set i l }

/-- A row of LINES, which must carry the form of the row it lands on (R143, R173). -/
def State.writeLine (i : Nat) (w : LineWrite) (s : State) : Done :=
  if h : i < 8 then
    match w with
    | .output o => acceptRow ((s.lines.outputs[i]).write o) (State.storeOutput ⟨i, h⟩) s
    | _ => (s, bare .badValue)
  else if h : i - 8 < 4 then
    match w with
    | .input o => acceptRow ((s.lines.inputs[i - 8]).write o) (State.storeInput ⟨i - 8, h⟩) s
    | _ => (s, bare .badValue)
  else (s, bare .badValue)

/-- The lengths a row argument may have: the configured part, or a whole row (R187). -/
def Table.rowLengths (t : Table) (row : Nat) : List Nat :=
  match t with
  | .cadence => [16, 140]
  | .flow => [28, 56]
  | .rules => [16]
  | .managers => [8]
  | .lines => if row < 8 then [16, 24] else [4, 24]
  | .source => []
  | .residence => []

/-- WRITE_ROW at the cursor with its bytes: read-only table, then length and cursor, then values (R170, R173, R187). The
running and statistics parts of a whole row are ignored (R158, R187, log 48). -/
def State.cmdWriteRow (content : List Byte) (s : State) : Done :=
  let row := s.ctl.row
  match s.ctl.table with
  | .source => (s, bare .readOnly)
  | .residence => (s, bare .readOnly)
  | t =>
    if (t.rowLengths row).contains content.length && row < t.rows then
      match t with
      | .cadence => s.writeCadence row (readCadenceWrite content)
      | .flow => s.writeFlow row (readFlowWrite content)
      | .rules => s.writeRule row (readRuleWrite content)
      | .managers => s.writeManager row (readManagerWrite content)
      | .lines => s.writeLine row (readLineWrite content)
      | .source => (s, bare .readOnly)
      | .residence => (s, bare .readOnly)
    else (s, bare .badValue)

/-- A row write that carries the form of one table, at the cursor: SOURCE and RESIDENCE are read-only (R170, R173), and
on another table the form is not the row's own (log 12). -/
def State.cmdWriteRowOf (t : Table) (f : Nat → State → Done) (s : State) : Done :=
  match s.ctl.table with
  | .source => (s, bare .readOnly)
  | .residence => (s, bare .readOnly)
  | at_ => if at_ = t then f s.ctl.row s else (s, bare .badValue)

/-! ## Events (R175) -/

/-- READ_EVENTS. -/
def State.cmdReadEvents (room : Nat) (s : State) : Done :=
  if 4 ≤ room then (s, ⟨.ok, beBytes 4 s.ctl.flags.toNat⟩) else (s, bare .noRoom)

/-- CLEAR_EVENTS; a set naming a member that is no flag is no set of flags (log 16). -/
def State.cmdClearEvents (set : BitVec 32) (s : State) : Done :=
  if set.toNat < 2 ^ 24 then
    (s.modControl fun c => { c with flags := c.flags &&& ~~~(set.setWidth 24) }, bare .ok)
  else (s, bare .badValue)

/-! ## Commands of the other blocks -/

/-- SERVO_RESTART (R18). -/
def State.cmdServoRestart (s : State) : Done := (s.servoRestart, bare .ok)

/-- SET_TIME (R19). -/
def State.cmdSetTime (t : TimeValue) (s : State) : Done :=
  if s.servo.state ≠ .freerun then (s, bare .state)
  else if 999999999 < t.ns then (s, bare .badValue)
  else (s.setTime t, bare .ok)

/-- REALIGN (R125). -/
def State.cmdRealign (mask : BitVec 16) (s : State) : Done := (s.realignMask mask, bare .ok)

/-- JAM (R137). -/
def State.cmdJam (mask : BitVec 16) (s : State) : Done := (s.jamCommand mask, bare .ok)

/-- LINE_SET, LINE_CLEAR (R149). -/
def State.cmdLines (mask : BitVec 8) (v : Level) (s : State) : Done := (s.setLines mask v, bare .ok)

/-- CAPTURE_READ (R156). With no room left for a record it still reports the counts: its head is always carried, and
`roomLeft` has kept the 4 bytes for it (log 15). -/
def State.cmdCaptureRead (room count : Nat) (s : State) : Done :=
  let n := rowsFitting room count s.lines.fifo.length 20
  let held := s.lines.fifo.drop n
  let head : List Byte := [byteOf n, byteOf held.length, byteOf s.lines.overflow, 0]
  (s.modLines fun u => { u with fifo := held, overflow := 0 },
    ⟨.ok, head ++ (s.lines.fifo.take n).flatMap Capture.bytes⟩)

/-- The figures of the rows from `row` on, n of them, are cleared (R167). -/
def Flow.clearRows (f : Flow) (row n : Nat) : Flow :=
  { f with rows := Vector.ofFn fun i : Fin 64 =>
      if row ≤ i.val ∧ i.val < row + n then f.rows[i].clearFigures else f.rows[i] }

/-- FLOW_READ_CLEAR (R167). -/
def State.cmdFlowReadClear (room count : Nat) (s : State) : Done :=
  let row := s.ctl.row
  if s.ctl.table = .flow ∧ row < 64 ∧ count ≤ 64 then
    let n := rowsFitting room count (64 - row) Table.flow.rowSize
    ((s.modFlow (·.clearRows row n)).advanceCursor n,
      ⟨.ok, bulkData room n ((List.range n).flatMap fun i => s.rowBytes .flow (row + i))⟩)
  else (s, bare .badValue)

/-- SOFT_RESET is arranged for after the reply (R181). -/
def State.cmdSoftReset (s : State) : Done := (s.modControl fun c => { c with softReset := true }, bare .ok)

/-! ## Command entries of a control frame (R170, chapter 12) -/

/-- Arguments of another length than the command's are BAD_VALUE (R186). -/
def withLength (n : Nat) (e : Entry) (f : State → Done) (s : State) : Done :=
  if e.args.length = n then f s else (s, bare .badValue)

/-- An entry that names an item, with its later checks once the item exists (R170). -/
def withItem (e : Entry) (f : Nat → State → Done) (s : State) : Done :=
  if e.args.length < 2 then (s, bare .badValue)
  else
    let n := fieldAt e.args 0 2
    if (s.itemValue n).isNone then (s, bare .noItem) else f n s

/-- One command entry, with `room` bytes left for data (R170). -/
def State.runEntry (room : Nat) (e : Entry) (s : State) : Done :=
  match e.code with
  | 1 => withItem e (fun n => withLength 4 e (State.cmdReadItem room n)) s
  | 2 => withItem e (fun n t =>
      if isWritable n then withLength 12 e (State.cmdWriteItem n (BitVec.ofNat 64 (fieldAt e.args 4 8))) t
      else (t, bare .readOnly)) s
  | 3 => withLength 4 e (State.cmdSetCursor (byteAt e.args 0) (fieldAt e.args 2 2)) s
  | 4 => withLength 4 e (State.cmdReadRows room (byteAt e.args 0).toNat) s
  | 5 => s.cmdWriteRow e.args
  | 6 => withLength 0 e (State.cmdReadEvents room) s
  | 7 => withLength 4 e (State.cmdClearEvents (BitVec.ofNat 32 (fieldAt e.args 0 4))) s
  | 8 => withLength 0 e State.cmdServoRestart s
  | 9 => withLength 12 e (State.cmdSetTime ⟨fieldAt e.args 0 6, fieldAt e.args 6 4, fieldAt e.args 10 2⟩) s
  | 10 => withLength 2 e (State.cmdRealign (BitVec.ofNat 16 (fieldAt e.args 0 2))) s
  | 11 => withLength 2 e (State.cmdJam (BitVec.ofNat 16 (fieldAt e.args 0 2))) s
  | 12 => withLength 4 e (State.cmdLines (byteAt e.args 0) .active) s
  | 13 => withLength 4 e (State.cmdLines (byteAt e.args 0) .inactive) s
  | 14 => withLength 4 e (State.cmdCaptureRead room (byteAt e.args 0).toNat) s
  | 15 => withLength 4 e (State.cmdFlowReadClear room (byteAt e.args 0).toNat) s
  | 16 => withLength 0 e State.cmdSoftReset s
  | _ => (s, bare .unknownCommand)

/-- A result entry (chapter 12). -/
def Answer.bytes (a : Answer) (code : Nat) : List Byte :=
  putNat 2 (6 + a.data.length) ++ putNat 2 code ++ [byteOf a.result.code, 0] ++ a.data

/-- Bytes of a reply before its result entries, and of a bare result entry. -/
abbrev replyHead : Nat := 8
abbrev bareEntry : Nat := 6

/-- What a reply keeps for a later command: its bare result entry, and for a CAPTURE_READ, which reports its counts even
where no record fits, the 4-byte head with them too (R156, R171, log 15). -/
def Entry.kept (e : Entry) : Nat := if e.code = 14 ∧ e.args.length = 4 then bareEntry + 4 else bareEntry

/-- The room for the data of a command: its own bare entry is kept (log 14), and what each later command of the frame
has kept for it (R171). -/
def roomLeft (formed : Nat) (later : List Entry) : Nat :=
  replyLimit - replyHead - formed - bareEntry - (later.map Entry.kept).sum

/-- The room of a command that stands alone (log 11). -/
abbrev roomAlone : Nat := 1486

/-! ## Standing alone (log 11) -/

/-- A management command that stands alone runs like the one command of a frame: under the hold, which ends after it,
and with a SOFT_RESET it arranges carried out at the end (R178, R181, log 11). Inside the span of a begun frame it is
one more command of that span. -/
def State.runAlone (f : State → Done) (s : State) : State :=
  if s.ctl.hold then
    let d := f s
    d.1.modControl fun c => { c with lastResult := some d.2 }
  else
    let d := f (s.modControl fun c => { c with hold := true })
    let t := (d.1.modControl fun c => { c with lastResult := some d.2 }).endHold
    if t.ctl.softReset then t.carryOutSoftReset else t

/-- A management command; in reset the part takes none (R180). -/
def command (f : State → Done) (s : State) : Outcome := .next (if s.inReset then s else s.runAlone f)

def execReadItem (item : BitVec 16) (s : State) : Outcome := command (State.cmdReadItem roomAlone item.toNat) s

def execWriteItem (item : BitVec 16) (value : BitVec 64) (s : State) : Outcome :=
  command (State.cmdWriteItem item.toNat value) s

def execWriteTrimLimit (value : BitVec 64) (s : State) : Outcome := command (fun t => asDone (t.writeTrimLimit value)) s

def execWriteLockIndicationMode (value : BitVec 64) (s : State) : Outcome :=
  command (fun t => asDone (t.writeLockMode value)) s

def execWriteResidenceLifetime (value : BitVec 64) (s : State) : Outcome :=
  command (fun t => asDone (t.writeLifetime value)) s

def execWriteLossLimit (value : BitVec 64) (s : State) : Outcome := command (fun t => asDone (t.writeLossLimit value)) s

def execWritePreferredPath (value : BitVec 64) (s : State) : Outcome :=
  command (fun t => asDone (t.writePreferred value)) s

def execWriteRevertive (value : BitVec 64) (s : State) : Outcome := command (fun t => asDone (t.writeRevertive value)) s

def execWriteHouseItem (item : HouseItem) (value : BitVec 64) (s : State) : Outcome :=
  command (fun t => asDone (t.writeHouse item value)) s

def execWriteArbiterClass (requester : Requester) (value : BitVec 64) (s : State) : Outcome :=
  command (fun t => asDone (t.writeClass requester value)) s

def execWriteProbeIntervalExponent (value : BitVec 64) (s : State) : Outcome :=
  command (fun t => asDone (t.writeExponent value)) s

def execWriteDelayWindowLength (value : BitVec 64) (s : State) : Outcome :=
  command (fun t => asDone (t.writeWindowLength value)) s

def execWriteFlowMonitorEnable (value : BitVec 64) (s : State) : Outcome :=
  command (fun t => asDone (t.writeFlowEnable value)) s

def execSetCursor (table : Byte) (row : BitVec 16) (s : State) : Outcome := command (State.cmdSetCursor table row.toNat) s

def execReadRows (count : Byte) (s : State) : Outcome := command (State.cmdReadRows roomAlone count.toNat) s

def execWriteRow (content : List Byte) (s : State) : Outcome := command (State.cmdWriteRow content) s

def execWriteRowCadence (content : CadenceWrite) (s : State) : Outcome :=
  command (State.cmdWriteRowOf .cadence fun i => State.writeCadence i content) s

def execWriteRowFlow (content : FlowWrite) (s : State) : Outcome :=
  command (State.cmdWriteRowOf .flow fun i => State.writeFlow i content) s

def execWriteRowRules (content : RuleWrite) (s : State) : Outcome :=
  command (State.cmdWriteRowOf .rules fun i => State.writeRule i content) s

def execWriteRowManagers (content : ManagerWrite) (s : State) : Outcome :=
  command (State.cmdWriteRowOf .managers fun i => State.writeManager i content) s

def execWriteRowLines (content : LineWrite) (s : State) : Outcome :=
  command (State.cmdWriteRowOf .lines fun i => State.writeLine i content) s

def execReadEvents (s : State) : Outcome := command (State.cmdReadEvents roomAlone) s

def execClearEvents (flags : BitVec 32) (s : State) : Outcome := command (State.cmdClearEvents flags) s

def execServoRestart (s : State) : Outcome := command State.cmdServoRestart s

def execSetTime (sec : BitVec 48) (ns : BitVec 32) (sub : BitVec 16) (s : State) : Outcome :=
  command (State.cmdSetTime ⟨sec.toNat, ns.toNat, sub.toNat⟩) s

def execRealign (generators : BitVec 16) (s : State) : Outcome := command (State.cmdRealign generators) s

def execJam (generators : BitVec 16) (s : State) : Outcome := command (State.cmdJam generators) s

def execLineSet (lines : BitVec 8) (s : State) : Outcome := command (State.cmdLines lines .active) s

def execLineClear (lines : BitVec 8) (s : State) : Outcome := command (State.cmdLines lines .inactive) s

def execCaptureRead (count : Byte) (s : State) : Outcome := command (State.cmdCaptureRead roomAlone count.toNat) s

def execFlowReadClear (count : Byte) (s : State) : Outcome := command (State.cmdFlowReadClear roomAlone count.toNat) s

def execSoftReset (s : State) : Outcome := command State.cmdSoftReset s

/-! ## Taking a control frame (R169 to R171, R178) -/

/-- The waiting place served next (R169). -/
def Control.nextWaiting (c : Control) : Option Path :=
  match c.waiting.a, c.waiting.b with
  | none, none => none
  | some _, none => some .a
  | none, some _ => some .b
  | some x, some y =>
    if x.since < y.since then some .a else if y.since < x.since then some .b else some c.lastServed.other

/-- The frame in hand is done with; a waiting frame is taken in hand (R169). -/
def Control.promote (c : Control) : Control :=
  match c.nextWaiting with
  | none => { c with executing := none }
  | some p =>
    match c.waiting.get p with
    | none => { c with executing := none }
    | some w => { c with executing := some ⟨w.frame, false, [], [], 0⟩, waiting := c.waiting.set p none }

/-- The hold ends, an arranged SOFT_RESET is carried out, and the next frame is taken in hand (R169, R178, R181). -/
def State.endFrame (s : State) : State :=
  let t := s.endHold
  let u := if t.ctl.softReset then t.carryOutSoftReset else t
  u.modControl Control.promote

/-- The sender check: a non-empty manager table holds the source address (R169). -/
def Control.admits (c : Control) (src : Station) : Bool :=
  (List.finRange 4).all (fun i => (c.managers[i]).isNone) || (List.finRange 4).any fun i => c.managers[i] == some src

/-- The reply to the frame in hand (R171, R186, chapter 12). -/
def replyFrame (station : Station) (x : Execution) : List Byte :=
  let e := readFrame x.frame.bytes
  let entries := x.answers.flatten
  sealFrame <|
    putBits 6 e.src ++ putBits 6 station ++ e.tag.getD [] ++ beBytes 2 controlType ++
    [1, (if 0 < x.excess then 1 else 0)] ++ slice e.payload 2 2 ++ putNat 2 (replyHead + entries.length) ++ [0, 0] ++ entries

/-- The last command has yielded its result: commands not run are counted, the reply is offered (R170, R171). -/
def State.finishFrame (x : Execution) (s : State) : State :=
  ((s.modControl fun c => { c with count := { c.count with notRun := bumpBy x.excess c.count.notRun } }).offerReply
    x.frame.path (replyFrame s.ctl.station x)).endFrame

/-- The next command of the frame in hand runs (R170). -/
def State.runNext (x : Execution) (e : Entry) (rest : List Entry) (s : State) : State :=
  let d := s.runEntry (roomLeft x.answers.flatten.length rest) e
  d.1.modControl fun c =>
    { c with
      executing := some { x with entries := rest, answers := x.answers ++ [d.2.bytes e.code] }
      lastResult := some d.2 }

/-- Up to n commands of the begun frame in hand run; the reply is offered, and the frame ends, after the last of them
where n is not used up (R170, R178, log 10). -/
def State.runEntries : Nat → State → State
  | 0, s => s
  | n + 1, s =>
    match s.ctl.executing with
    | none => s
    | some x =>
      match x.entries with
      | [] => s.finishFrame x
      | e :: rest => (s.runNext x e rest).runEntries n

/-- A begun frame is gone on with: with no command left its reply is offered (R171, log 10). -/
def State.goOn (x : Execution) (n : Nat) (s : State) : State :=
  if x.entries.isEmpty then s.finishFrame x else s.runEntries n

/-- The frame in hand is taken: the sender check, then the well-formed check (R169, R186). -/
def State.beginFrame (x : Execution) (n : Nat) (s : State) : State :=
  let e := readFrame x.frame.bytes
  let t := s.modControl fun c => { c with lastServed := x.frame.path, hold := true }
  if t.ctl.admits e.src then
    match readRequest e.payload with
    | some (_, entries) =>
      (t.modControl fun c =>
        { c with
          count := { c.count with executed := bump c.count.executed }
          executing := some
            { x with begun := true, entries := entries.take commandLimit, excess := entries.length - commandLimit } }).runEntries n
    | none =>
      ((t.modControl fun c => { c with count := { c.count with malformed := bump c.count.malformed } }).raise
        .mgmtDrop).endFrame
  else (t.modControl fun c => { c with count := { c.count with rejects := bump c.count.rejects } }).endFrame

/-- The control unit takes the frame in hand, or goes on with it (R169, log 10). -/
def State.takeControl (n : Nat) (s : State) : State :=
  match s.ctl.executing with
  | none => s
  | some x => if x.begun then s.goOn x n else s.beginFrame x n

/-- CONTROL_FRAME_TAKEN (R169). -/
def execControlFrameTaken (dt : Nat) (commands : Nat) (s : State) : Outcome := event dt (State.takeControl commands) s

end Sys2Proof.Machine
end

