-- ==== Sys2Proof/Machine/Dispatch.lean ====
section
/-! DEFINITION. The command dispatcher: one arm for each row of spec/opcode_table.json. -/

namespace Sys2Proof.Machine

def exec (i : Instr) (s : State) : Host.Outcome State Fault Refusal :=
  match i with
  | .powerOn => Sys2Proof.Machine.execPowerOn s
  | .resetLineAssert => Sys2Proof.Machine.execResetLineAssert s
  | .resetRelease profile1 profile0 => Sys2Proof.Machine.execResetRelease profile1 profile0 s
  | .linkUp dt port speed => Sys2Proof.Machine.execLinkUp dt port speed s
  | .linkDown dt port => Sys2Proof.Machine.execLinkDown dt port s
  | .frameReceived dt port frame => Sys2Proof.Machine.execFrameReceived dt port frame s
  | .offerTaken dt path => Sys2Proof.Machine.execOfferTaken dt path s
  | .beaconTaken dt path => Sys2Proof.Machine.execBeaconTaken dt path s
  | .detailTaken dt path => Sys2Proof.Machine.execDetailTaken dt path s
  | .replyTaken dt path => Sys2Proof.Machine.execReplyTaken dt path s
  | .mediaDatagramTaken dt port => Sys2Proof.Machine.execMediaDatagramTaken dt port s
  | .transmitEnd dt port => Sys2Proof.Machine.execTransmitEnd dt port s
  | .probeDue dt path => Sys2Proof.Machine.execProbeDue dt path s
  | .offerDeadline dt row => Sys2Proof.Machine.execOfferDeadline dt row s
  | .purge dt row => Sys2Proof.Machine.execPurge dt row s
  | .muteDeadline dt row => Sys2Proof.Machine.execMuteDeadline dt row s
  | .holdoverExpiry dt => Sys2Proof.Machine.execHoldoverExpiry dt s
  | .residenceExpiry dt row => Sys2Proof.Machine.execResidenceExpiry dt row s
  | .silenceTimerExpiry dt row => Sys2Proof.Machine.execSilenceTimerExpiry dt row s
  | .pulseEnd dt line => Sys2Proof.Machine.execPulseEnd dt line s
  | .holdoffEnd dt => Sys2Proof.Machine.execHoldoffEnd dt s
  | .timescaleHold dt => Sys2Proof.Machine.execTimescaleHold dt s
  | .generatorEdge dt gen => Sys2Proof.Machine.execGeneratorEdge dt gen s
  | .inputTransition dt line edge => Sys2Proof.Machine.execInputTransition dt line edge s
  | .controlFrameTaken dt commands => Sys2Proof.Machine.execControlFrameTaken dt commands s
  | .readItem item => Sys2Proof.Machine.execReadItem item s
  | .writeItem item value => Sys2Proof.Machine.execWriteItem item value s
  | .writeTrimLimit value => Sys2Proof.Machine.execWriteTrimLimit value s
  | .writeLockIndicationMode value => Sys2Proof.Machine.execWriteLockIndicationMode value s
  | .writeResidenceLifetime value => Sys2Proof.Machine.execWriteResidenceLifetime value s
  | .writeLossLimit value => Sys2Proof.Machine.execWriteLossLimit value s
  | .writePreferredPath value => Sys2Proof.Machine.execWritePreferredPath value s
  | .writeRevertive value => Sys2Proof.Machine.execWriteRevertive value s
  | .writeHouseItem item value => Sys2Proof.Machine.execWriteHouseItem item value s
  | .writeArbiterClass requester value => Sys2Proof.Machine.execWriteArbiterClass requester value s
  | .writeProbeIntervalExponent value => Sys2Proof.Machine.execWriteProbeIntervalExponent value s
  | .writeDelayWindowLength value => Sys2Proof.Machine.execWriteDelayWindowLength value s
  | .writeFlowMonitorEnable value => Sys2Proof.Machine.execWriteFlowMonitorEnable value s
  | .setCursor table row => Sys2Proof.Machine.execSetCursor table row s
  | .readRows count => Sys2Proof.Machine.execReadRows count s
  | .writeRow content => Sys2Proof.Machine.execWriteRow content s
  | .writeRowCadence content => Sys2Proof.Machine.execWriteRowCadence content s
  | .writeRowFlow content => Sys2Proof.Machine.execWriteRowFlow content s
  | .writeRowRules content => Sys2Proof.Machine.execWriteRowRules content s
  | .writeRowManagers content => Sys2Proof.Machine.execWriteRowManagers content s
  | .writeRowLines content => Sys2Proof.Machine.execWriteRowLines content s
  | .readEvents => Sys2Proof.Machine.execReadEvents s
  | .clearEvents flags => Sys2Proof.Machine.execClearEvents flags s
  | .servoRestart => Sys2Proof.Machine.execServoRestart s
  | .setTime sec ns sub => Sys2Proof.Machine.execSetTime sec ns sub s
  | .realign generators => Sys2Proof.Machine.execRealign generators s
  | .jam generators => Sys2Proof.Machine.execJam generators s
  | .lineSet lines => Sys2Proof.Machine.execLineSet lines s
  | .lineClear lines => Sys2Proof.Machine.execLineClear lines s
  | .captureRead count => Sys2Proof.Machine.execCaptureRead count s
  | .flowReadClear count => Sys2Proof.Machine.execFlowReadClear count s
  | .softReset => Sys2Proof.Machine.execSoftReset s
  | .ingressStartMarker dt port => Sys2Proof.Machine.execIngressStartMarker dt port s

end Sys2Proof.Machine
end

