-- ==== Sys2Proof/Machine/Step.lean ====
section
/-! DEFINITION. The step: the command at the front of the queue, or idling (log 1). -/

namespace Sys2Proof.Machine

/-- Idling on an empty queue: one nanosecond of oscillator time passes, none in reset (R1, R180, log 1). -/
def idle (s : State) : State := if s.inReset then s else s.elapse Config.unitsPerNs

/-- One step of the part: the command at the front of the queue runs with the queue's rest. -/
def step (s : State) : Host.Outcome State Fault Refusal :=
  match s.pending with
  | [] => .next (idle s)
  | c :: rest => exec c { s with pending := rest }

/-- The command a word spells is put at the front of the queue; no word spells one, since the table gives no bits. -/
def State.withFetchWord (s : State) (nbits w : Nat) : State :=
  match decodeTableWord nbits w with
  | none => s
  | some c => { s with pending := c :: s.pending }

end Sys2Proof.Machine
end

