-- ==== Sys2Proof/Safety.lean ====
section
/-! DEFINITION. What counts as a safe run, and the invariants of the part that claims are stated with. -/

namespace Sys2Proof

/-- The rows of the command table that are events of the part: neither resets nor the control unit's (log 2). -/
def Instr.isPlainEvent : Instr → Bool
  | .linkUp .. | .linkDown .. | .frameReceived .. | .offerTaken .. | .beaconTaken .. | .detailTaken .. => true
  | .replyTaken .. | .mediaDatagramTaken .. | .transmitEnd .. | .probeDue .. | .offerDeadline .. | .purge .. => true
  | .muteDeadline .. | .holdoverExpiry .. | .residenceExpiry .. | .silenceTimerExpiry .. | .pulseEnd .. => true
  | .holdoffEnd .. | .timescaleHold .. | .generatorEdge .. | .inputTransition .. | .ingressStartMarker .. => true
  | _ => false

end Sys2Proof

namespace Sys2Proof.Machine

open Sys2Proof.Config

/-- A run that no fault and no refusal ends within k steps. -/
def SafeFor : Nat → State → Prop
  | 0, _ => True
  | k + 1, s => ∃ t, step s = .next t ∧ SafeFor k t

/-- The timescale is in the normal form of R1, the trim and the accumulator lie within the trim limit (R20), and
every writable servo item, the stage, the counts of offsets and last offset lie in the ranges of the servo item table. What
remains of holdover and the counters are in `Servo.Ranged`. -/
structure Servo.Sound (v : Servo) : Prop where
  time         : TimeValue.normal v.time = true
  frac         : v.frac < trimDenom
  limit        : 1 ≤ v.trimLimit ∧ v.trimLimit ≤ 1600000
  trim         : -(v.trimLimit : Int) ≤ v.trim ∧ v.trim ≤ v.trimLimit
  acc          : -(v.trimLimit : Int) ≤ v.acc ∧ v.acc ≤ v.trimLimit
  stages       : v.stage ≤ 5 ∧ v.startStage ≤ 5 ∧ v.finalStage ≤ 5
  counts       : v.inWindow ≤ 8 ∧ v.outlierCount ≤ 15 ∧ v.quiet ≤ 16
  offset       : -1000000000 ≤ v.lastOffset ∧ v.lastOffset ≤ 1000000000
  thresholds   : 1000 ≤ v.stepThreshold ∧ v.stepThreshold ≤ 1000000000 ∧
    100 ≤ v.outlierThreshold ∧ v.outlierThreshold ≤ 1000000
  settings     : 1 ≤ v.outlierLimit ∧ v.outlierLimit ≤ 15 ∧ v.quietCode ≤ 3 ∧
    1 ≤ v.holdoverBudget ∧ v.holdoverBudget ≤ 65535

/-- The rest of the servo item table: holdover remaining is at most the largest budget (item 120), and the counters stay
within 32 bits (items 130 to 136). -/
structure Servo.Ranged (v : Servo) : Prop where
  remaining : ∀ left, v.timer = .running left ∨ v.timer = .held left → left ≤ 65535 * unitsPerSec
  counters  : ∀ n ∈ [v.count.offsetsReceived, v.count.quietDiscards, v.count.stepsTaken, v.count.stepsRefused,
    v.count.outliers, v.count.outlierExits, v.count.holdoverExpiries], n ≤ 4294967295

/-- The buffers and queues of a path keep their limits (R41, R45). -/
structure PathState.Bounded (p : PathState) : Prop where
  downFrames   : p.down.frames.length ≤ bufferFrames
  downSegments : p.down.segmentsUsed ≤ segments
  upFrames     : p.up.frames.length ≤ bufferFrames
  upSegments   : p.up.segmentsUsed ≤ segments
  mgmt         : p.queues.mgmt.length ≤ mgmtDepth

/-- The capture FIFO and its overflow count keep their limits (R155). -/
def Lines.Bounded (l : Lines) : Prop := l.fifo.length ≤ captureDepth ∧ l.overflow ≤ overflowMax

/-- No two enabled flow rows overlap (R158). -/
def Flow.NoOverlap (f : Flow) : Prop :=
  ∀ i j : Fin 64, i ≠ j → f.rows[i].config.enabled = true → f.rows[j].config.enabled = true →
    f.rows[i].config.overlaps f.rows[j].config = false

/-- STEP and FREERUN_ENTERED are never in the notice mask, the holdoff and the notice sequence keep their ranges, and
the cursor rests at most one row past its table (R173, R176). -/
structure Control.Sound (c : Control) : Prop where
  unmasked : c.mask.getLsbD 0 = false ∧ c.mask.getLsbD 1 = false
  holdoff  : c.holdoff ≤ 10000
  sequence : c.sequence < 65536
  cursor   : c.row ≤ c.table.rows

/-- The edge law of a generator (R112, R115 to R118): the stored rate has a period of 1,000 ns to 2^32 - 1 ns, a RUNNING one holds an index of the signed 64-bit range with its exact
instant and remainder, and the gap constants of its configured part; the others hold no next instant. -/
structure Generator.Lawful (g : Generator) : Prop where
  rate     : 1 ≤ g.config.n ∧ 1 ≤ g.config.d
  period   : 1000 * g.config.n ≤ g.config.d * 1000000000 ∧ g.config.d * 1000000000 ≤ 4294967295 * g.config.n
  running  : g.condition = .running → ∃ k : Int, k ≤ indexMax ∧ g.next = some k ∧
    g.instant = some (g.config.edgeAt k) ∧ g.remainder = some (g.config.remainderAt k) ∧
    g.gap = g.config.gap ∧ g.gapRemainder = g.config.gapRemainder
  resting  : g.condition ≠ .running → g.instant = none ∧ g.remainder = none
  top      : g.condition = .exhausted → g.next = some indexMax
  off      : g.condition = .disabled → g.next = none ∧ g.last = none ∧ g.label = none
  enabled  : g.condition = .disabled ↔ g.config.enabled = false

/-- The selected entry, when there is one, is eligible (R82, R85). -/
def State.SelectedEligible (s : State) : Prop := ∀ i, s.sources.selected = some i → s.rowEligible i = true

/-- Never two entries with the same sender identity and path (R73). -/
def Sources.KeysUnique (q : Sources) : Prop :=
  ∀ (i j : Fin 16) (e f : SourceEntry), q.table[i] = some e → q.table[j] = some f →
    e.sender = f.sender → e.path = f.path → i = j

/-- Never two residence entries with the same path, sender identity, domain and sequence (R63). -/
def Correction.KeysUnique (c : Correction) : Prop :=
  ∀ (i j : Fin 32) (e f : ResidenceEntry), c.rows[i] = some e → c.rows[j] = some f →
    e.path = f.path → e.sender = f.sender → e.domain = f.domain → e.sequence = f.sequence → i = j

/-- The hold of R178 covers a begun frame, and nothing waits for its end when it is not in force. -/
structure Control.HoldSound (c : Control) : Prop where
  notice : c.hold = false → c.heldNotice = false ∧ c.softReset = false
  begun  : c.hold = false → ∀ x, c.executing = some x → x.begun = false

/-- Out of reset, with the hold sound: the states in which a management command stands alone as log 11 says. -/
def State.Ready (s : State) : Prop := s.inReset = false ∧ s.ctl.HoldSound

/-- The state with the answer of the last command; nothing else changes (log 32). -/
def State.answered (s : State) (a : Answer) : State := { s with ctl := { s.ctl with lastResult := some a } }

/-- The index of the first edge of a realign at u of a generator (R120, R121): k0 = floor((u - phi) N / (D 10^9)) + 1, raised
by 1 when that very edge was the last emitted, at this instant. -/
def Generator.firstEdge (g : Generator) (u : Int) : Int :=
  let k0 := Int.fdiv ((u - g.config.phi) * g.config.n) (g.config.d * 1000000000) + 1
  if g.last = some ⟨k0, u⟩ ∧ g.config.edgeAt k0 = u then k0 + 1 else k0

/-- The edge k is the first edge of a realign at u (R120, R121). -/
def Generator.FirstEdge (g : Generator) (u k : Int) : Prop := k = g.firstEdge u

/-- The label state that a realign notice places for a RUNNING generator at u under house items h (R130, R131, R135): none
in label mode OFF; else the mode constants of the configured part, the jam edges of the most recent jam instant at or
before u and of the one a day after it, the latched base, and the last label kept. -/
def Generator.labelAt (h : HouseItems) (u : Int) (a : Generator) : Option LabelState :=
  let c : Int := (h.jam + h.utc - h.zone) * 1000000000
  let prev : Int := Int.fdiv (u - c) 86400000000000 * 86400000000000 + c
  let base := (a.config.n + a.config.d - 1) / a.config.d
  let placed := fun m : LabelMath => (
    { math := m
      jamEdge := a.config.firstAtOrAfter prev
      nextJam := a.config.firstAtOrAfter (prev + 86400000000000)
      utc := h.utc
      zone := h.zone
      jam := h.jam
      last := a.label.bind (·.last) } : LabelState)
  match a.config.labelMode with
  | .off => none
  | .ndf => some (placed ⟨base, 0, 0, 0, base * 86400⟩)
  | .df => some (placed (if a.config.n = 30000 then ⟨30, 2, 1798, 17982, 2589408⟩ else ⟨60, 4, 3596, 35964, 5178816⟩))

/-- The labels of `b` are those of `a` after the placing of a realign notice and, where k is given, after the labelling of
the edge k emitted at once (R132, R135). -/
def Generator.LabelledFrom (h : HouseItems) (u : Int) (k : Option Int) (a b : Generator) : Prop :=
  let placed : Generator := { a with label := a.labelAt h u }
  let c := match k with
    | none => placed
    | some k => (placed.labelEdge k).1
  b.label = c.label ∧ b.wraps = c.wraps ∧ b.jams = c.jams

/-- The next edge of `a` where it has fallen due on u and a realign there under the configured part `c` would not itself emit
it: it is emitted before that realign (R113, R121, log 50). -/
def Generator.dueEdge (c : GenConfig) (u : Int) (a : Generator) : Option Int :=
  match a.condition, a.next, a.instant, a.remainder with
  | .running, some k, some t, some _ =>
    if t = u ∧ ¬ (k = ({ a with config := c } : Generator).firstEdge u ∧ c.edgeAt k = u) then some k else none
  | _, _, _, _ => none

/-- The generator `a` as a realign at u under the configured part `c` finds it: its due edge, if there is one, has been emitted
and labelled first (R113, R121, log 50). -/
def Generator.dueEmitted (c : GenConfig) (u : Int) (a : Generator) : Generator :=
  match a.dueEdge c u with
  | some k => { (a.labelEdge k).1 with last := some ⟨k, u⟩ }
  | none => a

/-- The line `l` after the edges that its generator `a` hands to it at a realign of `a` at u under the configured part `c`: the
due edge of log 50, where `due` says that it is emitted, at the gap quotient of before; then, through the realign notice,
which changes nothing of the line, the edge on u that the realign emits at once, at the new gap quotient. A generator that
becomes EXHAUSTED emits none (R120, R121, R124, R145, R150). -/
def OutputLine.afterRealign (lock due : Bool) (c : GenConfig) (u : Int) (a : Generator) (l : OutputLine) : OutputLine :=
  let old := if due then a.dueEdge c u else none
  let found : Generator := { (if due then a.dueEmitted c u else a) with config := c }
  let first := found.firstEdge u
  let noticed := match old with
    | some k => l.takeEdge lock l.cadence a.gap k
    | none => l
  if first ≤ 9223372036854775807 ∧ c.edgeAt first = u then
    noticed.takeEdge lock l.cadence (c.d * 1000000000 / c.n) first
  else noticed

/-- The generator `b` is `a` realigned at u with this cause under house items h (R118, R120 to R122, R135, R139): counted,
with the gap constants of its configured part, EXHAUSTED and without label state when its first edge lies above the
largest index, else RUNNING toward that edge with its jams placed at u, or past it where it lies on u and has been emitted
and labelled at once. -/
structure Generator.Realigned (h : HouseItems) (u : Int) (cause : RealignCause) (a b : Generator) : Prop where
  config    : b.config = a.config
  cause     : b.cause = cause
  count     : b.realigns = bump a.realigns
  gap       : b.gap = a.config.d * 1000000000 / a.config.n ∧ b.gapRemainder = a.config.d * 1000000000 % a.config.n
  beyond    : ∀ k, a.FirstEdge u k → 9223372036854775807 < k →
    b.condition = .exhausted ∧ b.next = some 9223372036854775807 ∧ b.instant = none ∧ b.last = a.last ∧
    b.label = none ∧ b.wraps = a.wraps ∧ b.jams = a.jams
  later     : ∀ k, a.FirstEdge u k → k ≤ 9223372036854775807 → a.config.edgeAt k ≠ u →
    b.condition = .running ∧ b.next = some k ∧ b.instant = some (a.config.edgeAt k) ∧ b.last = a.last ∧
    Generator.LabelledFrom h u none a b
  emitted   : ∀ k, a.FirstEdge u k → k < 9223372036854775807 → a.config.edgeAt k = u →
    b.condition = .running ∧ b.next = some (k + 1) ∧ b.last = some ⟨k, u⟩ ∧
    (1 ≤ a.config.n → b.instant = some (a.config.edgeAt (k + 1))) ∧ Generator.LabelledFrom h u (some k) a b
  emittedTop : a.FirstEdge u 9223372036854775807 → a.config.edgeAt 9223372036854775807 = u →
    b.condition = .exhausted ∧ b.next = some 9223372036854775807 ∧ b.instant = none ∧
    b.last = some ⟨9223372036854775807, u⟩ ∧ Generator.LabelledFrom h u (some 9223372036854775807) a b

/-- The management command that a command entry of right length names, with its arguments as chapter 12 lays them out,
most significant byte first (R183, R187); none for a code whose command returns data, and for any other code or length. -/
def Entry.command (e : Entry) : Option Instr :=
  match e.code, e.args with
  | 2, [n1, n0, _, _, v7, v6, v5, v4, v3, v2, v1, v0] =>
    some (.writeItem (n1 ++ n0) (v7 ++ v6 ++ v5 ++ v4 ++ v3 ++ v2 ++ v1 ++ v0))
  | 3, [table, _, r1, r0] => some (.setCursor table (r1 ++ r0))
  | 5, content => some (.writeRow content)
  | 7, [f3, f2, f1, f0] => some (.clearEvents (f3 ++ f2 ++ f1 ++ f0))
  | 8, [] => some .servoRestart
  | 9, [s5, s4, s3, s2, s1, s0, n3, n2, n1, n0, u1, u0] =>
    some (.setTime (s5 ++ s4 ++ s3 ++ s2 ++ s1 ++ s0) (n3 ++ n2 ++ n1 ++ n0) (u1 ++ u0))
  | 10, [m1, m0] => some (.realign (m1 ++ m0))
  | 11, [m1, m0] => some (.jam (m1 ++ m0))
  | 12, [mask, _, _, _] => some (.lineSet mask)
  | 13, [mask, _, _, _] => some (.lineClear mask)
  | 16, [] => some .softReset
  | _, _ => none

/-- The low n bytes of a number, most significant first (R183). -/
def bigEndian (n v : Nat) : List Byte := (List.range n).map fun i => BitVec.ofNat 8 (v / 256 ^ (n - 1 - i))

/-- A command entry as a request carries it: its length, its code, its arguments (chapter 12). -/
def Entry.wire (e : Entry) : List Byte := bigEndian 2 (4 + e.args.length) ++ bigEndian 2 e.code ++ e.args

/-- The payload is a well-formed request with this tag and these entries (R169, R186): frame kind 0, a contents length of at
least 12 and no more than the bytes present, and the entries filling the span from offset 8 to the contents length
exactly. What follows is padding. -/
def RequestOf (payload : List Byte) (tag : Nat) (entries : List Entry) : Prop :=
  let number := fun i => (payload.getD i 0).toNat * 256 + (payload.getD (i + 1) 0).toNat
  payload.head? = some 0 ∧ 12 ≤ number 4 ∧ number 4 ≤ payload.length ∧ tag = number 2 ∧
  (payload.take (number 4)).drop 8 = entries.flatMap Entry.wire ∧
  ∀ e ∈ entries, e.code < 65536 ∧ 4 + e.args.length < 65536

/-- What each command entry of a frame in execution does in `s`, with `room` bytes left for its data: the checks of R170 in
their order, each with its result and nothing changed; else the effect and the answer of the command that the entry
names; the data of READ_ITEM and READ_EVENTS, or NO_ROOM, and as many rows or records as fit after the counts (R156, R167,
R171, R173; log 15 where fewer than 4 bytes are left, log 16 a count above 64). -/
structure State.RunsEntries (s : State) : Prop where
  unknown     : ∀ room e, e.code = 0 ∨ 16 < e.code → s.runEntry room e = (s, ⟨.unknownCommand, []⟩)
  short       : ∀ room e, e.code = 1 ∨ e.code = 2 → e.args.length < 2 → s.runEntry room e = (s, ⟨.badValue, []⟩)
  absent      : ∀ room code n1 n0 rest, code = 1 ∨ code = 2 → s.itemValue (n1 ++ n0 : BitVec 16).toNat = none →
    s.runEntry room ⟨code, n1 :: n0 :: rest⟩ = (s, ⟨.noItem, []⟩)
  readOnly    : ∀ room n1 n0 rest, (s.itemValue (n1 ++ n0 : BitVec 16).toNat).isSome = true →
    isWritable (n1 ++ n0 : BitVec 16).toNat = false → s.runEntry room ⟨2, n1 :: n0 :: rest⟩ = (s, ⟨.readOnly, []⟩)
  itemLength  : ∀ room code n1 n0 rest, (s.itemValue (n1 ++ n0 : BitVec 16).toNat).isSome = true →
    code = 1 ∧ rest.length ≠ 2 ∨ code = 2 ∧ isWritable (n1 ++ n0 : BitVec 16).toNat = true ∧ rest.length ≠ 10 →
    s.runEntry room ⟨code, n1 :: n0 :: rest⟩ = (s, ⟨.badValue, []⟩)
  otherLength : ∀ room e, ∀ x ∈ [(3, 4), (4, 4), (6, 0), (7, 4), (8, 0), (9, 12), (10, 2), (11, 2), (12, 4), (13, 4),
    (14, 4), (15, 4), (16, 0)], e.code = x.1 → e.args.length ≠ x.2 → s.runEntry room e = (s, ⟨.badValue, []⟩)
  command     : ∀ room e c, e.command = some c →
    exec c s = .next ((s.runEntry room e).1.answered (s.runEntry room e).2)
  readItem    : ∀ room n1 n0 x y v, s.itemValue (n1 ++ n0 : BitVec 16).toNat = some v →
    s.runEntry room ⟨1, [n1, n0, x, y]⟩ = (s, if v.length ≤ room then ⟨.ok, v⟩ else ⟨.noRoom, []⟩)
  readEvents  : ∀ room, s.runEntry room ⟨6, []⟩ =
    (s, if 4 ≤ room then ⟨.ok, beBytes 4 s.ctl.flags.toNat⟩ else ⟨.noRoom, []⟩)
  readRows    : ∀ room count x y z, s.runEntry room ⟨4, [count, x, y, z]⟩ =
    if s.ctl.row < s.ctl.table.rows then
      let n := min count.toNat (min (s.ctl.table.rows - s.ctl.row) ((room - 4) / s.ctl.table.rowSize))
      ({ s with ctl := { s.ctl with row := s.ctl.row + n } },
        ⟨.ok, if room < 4 then [] else [BitVec.ofNat 8 n, 0, 0, 0] ++
          (List.range n).flatMap fun i => s.rowBytes s.ctl.table (s.ctl.row + i)⟩)
    else (s, ⟨.badValue, []⟩)
  captureRead : ∀ room count x y z, s.runEntry room ⟨14, [count, x, y, z]⟩ =
    let n := min count.toNat (min s.lines.fifo.length ((room - 4) / 20))
    ({ s with lines := { s.lines with fifo := s.lines.fifo.drop n, overflow := 0 } },
      ⟨.ok, [BitVec.ofNat 8 n, BitVec.ofNat 8 (s.lines.fifo.length - n), BitVec.ofNat 8 s.lines.overflow, 0] ++
        (s.lines.fifo.take n).flatMap Capture.bytes⟩)
  flowRead    : ∀ room count x y z, s.runEntry room ⟨15, [count, x, y, z]⟩ =
    if s.ctl.table = .flow ∧ s.ctl.row < 64 ∧ count.toNat ≤ 64 then
      let n := min count.toNat (min (64 - s.ctl.row) ((room - 4) / 56))
      let cleared := Vector.ofFn fun i : Fin 64 =>
        let r := s.flow.rows[i]
        if s.ctl.row ≤ i.val ∧ i.val < s.ctl.row + n then
          { r with stats := { r.stats with offsets := none, outside := 0, breach := false } }
        else r
      ({ s with flow := { s.flow with rows := cleared }, ctl := { s.ctl with row := s.ctl.row + n } },
        ⟨.ok, if room < 4 then [] else [BitVec.ofNat 8 n, 0, 0, 0] ++
          (List.range n).flatMap fun i => s.rowBytes .flow (s.ctl.row + i)⟩)
    else (s, ⟨.badValue, []⟩)

/-- The frame check sequence of R185: generator polynomial 04C11DB7h, the register started at all ones, each byte fed least
significant bit first, the result bit-reversed and inverted and sent least significant byte first. -/
def frameCheck (l : List Byte) : List Byte :=
  let bits := l.flatMap fun b => (List.range 8).map fun i => b.getLsbD i
  let reg := bits.foldl (fun (r : BitVec 32) bit => (r <<< 1) ^^^ (if r.getLsbD 31 = bit then 0 else 0x04C11DB7)) 0xFFFFFFFF
  (bigEndian 4 (~~~ reg.reverse).toNat).reverse

/-- A frame that the part builds: its addresses, type and contents, zeros to the 64-byte frame minimum, and the frame check
sequence over all of these (R184, R185, R186). -/
def builtFrame (contents : List Byte) : List Byte :=
  let padded := contents ++ List.replicate (60 - contents.length) 0
  padded ++ frameCheck padded

/-- A network-side port after a reply or notice has been offered to its MGMT queue (R46): DOWN it counts a discard, with
8 frames queued a queue drop; else the frame joins the tail, and on an idle port with MGMT not MASKED the arbiter makes a
decision point at once (R49). -/
def PathState.mgmtOffered (i : Instant) (frame : List Byte) (q : PathState) : PathState :=
  let queued : PathState := { q with queues := { q.queues with mgmt := q.queues.mgmt ++ [frame] } }
  if q.net.up = false then { q with queues := { q.queues with linkDiscards := bump q.queues.linkDiscards } }
  else if 8 ≤ q.queues.mgmt.length then { q with queues := { q.queues with mgmtDrops := bump q.queues.mgmtDrops } }
  else if q.net.sending = none ∧ q.arb.mgmtClass ≠ .masked then queued.decision i
  else queued

/-- An offer now meets a full MGMT queue of an UP port (R46). -/
def PathState.mgmtFull (q : PathState) : Bool := q.net.up && decide (8 ≤ q.queues.mgmt.length)

/-- The state after a notice to `dst` has been made in `t` (R177 steps 1 to 6): a copy offered to each port that the
notice path names, the sequence and notices made risen by one, the timer started with a holdoff above 0; then MGMT_DROP
raised where a copy met a full queue (log 26). -/
def State.noticeMade (dst : Station) (t : State) : State :=
  let offer := fun (p : Path) (q : PathState) => if t.ctl.noticePath.names p then
    q.mgmtOffered ⟨t.now, t.correction.stepSum⟩ (noticeFrame t.noticeView t.ctl dst) else q
  let out : State := { t with
    paths := ⟨offer .a t.paths.a, offer .b t.paths.b⟩
    ctl := { t.ctl with
      sequence := (t.ctl.sequence + 1) % 65536
      timer := if 0 < t.ctl.holdoff then some (t.ctl.holdoff * 65536000000) else t.ctl.timer
      count := { t.ctl.count with notices := bump t.ctl.count.notices } } }
  if (t.ctl.noticePath.names .a && t.paths.a.mgmtFull) || (t.ctl.noticePath.names .b && t.paths.b.mgmtFull) then
    out.raise .mgmtDrop
  else out

/-- What a notice may change of a path: its MGMT queue with its counters, and what begins to leave the network-side
port, with the arbiter, the correction counters and the departure of a Probe that go with it (R46, R49, R177). -/
def PathState.NoticeOnly (a b : PathState) : Prop :=
  b = { a with
    net := { a.net with sending := b.net.sending }
    queues := { a.queues with
      mgmt := b.queues.mgmt, mgmtDrops := b.queues.mgmtDrops, linkDiscards := b.queues.linkDiscards }
    arb := b.arb
    correction := b.correction
    measure := { a.measure with record := b.measure.record } }

/-- The state `t` is `b` after these flags have been raised (R175, R177, R178): they are set, MGMT_DROP may be with
them when a notice met a full queue (R46), the notice logic may have made or held a notice, nothing else has changed,
and with no notice destination the flags alone have. -/
structure Raised (b : State) (fl : BitVec 24) (t : State) : Prop where
  flags : t.ctl.flags = b.ctl.flags ||| fl ∨ t.ctl.flags = b.ctl.flags ||| fl ||| Event.mgmtDrop.set
  state : t = { b with ctl := t.ctl, paths := t.paths }
  ctl   : t.ctl = { b.ctl with
    flags := t.ctl.flags, timer := t.ctl.timer, pendingMark := t.ctl.pendingMark, heldNotice := t.ctl.heldNotice
    sequence := t.ctl.sequence, count := { b.ctl.count with notices := t.ctl.count.notices } }
  path  : ∀ p, (b.path p).NoticeOnly (t.path p)
  off   : b.ctl.destination = none → t = { b with ctl := { b.ctl with flags := b.ctl.flags ||| fl } }

end Sys2Proof.Machine
end

