-- ==== Sys2Proof/Certificates/Slice0/Obligations.lean ====
section
/-! DEFINITION. The statements for the provers, in the order of OBLIGATIONS.json. Every statement of an event lets the
oscillator time `dt` of the command pass first (`State.elapse`, log 2); a management command stands alone (log 11). -/

open Sys2Proof Sys2Proof.Machine Sys2Proof.Config

/-- O1 (tier 1). A step takes the command at the front of the queue and runs exec on it with the queue's rest. The
model's own, in notes/assumptions: log 1. -/
def Obligations.StepRunsFrontCommand : Prop :=
  ∀ (c : Instr) (s : State), step { s with pending := c :: s.pending } = exec c s

/-- O2 (tier 2). Every command answers a next state and keeps the queue, an empty queue idles for 1 ns (log 1), and
no run is ever stopped. The model's own, in notes/assumptions: log 1. -/
def Obligations.EveryCommandAnswersAndNoRunStops : Prop :=
  (∀ (c : Instr) (s : State), ∃ t, exec c s = .next t ∧ t.pending = s.pending) ∧
    (∀ s : State, s.pending = [] → step s = .next (if s.inReset then s else s.elapse unitsPerNs)) ∧
    ∀ (k : Nat) (s : State), SafeFor k s

/-- O3 (tier 2). In reset no command but power-on, the RESET line, reset release and an input pin's level changes
anything. (R180, R179). The model's own, in notes/assumptions: logs 4, 7. -/
def Obligations.NothingIsTakenInReset : Prop :=
  ∀ (c : Instr) (s : State), s.inReset = true →
    (c ≠ .powerOn → c ≠ .resetLineAssert → (∀ a b, c ≠ .resetRelease a b) →
      (∀ dt l e, c ≠ .inputTransition dt l e) → exec c s = .next s) ∧
    ∀ (dt : Nat) (l : Fin 4) (e : EdgeDir), c = .inputTransition dt l e →
      exec c s = .next { s with lines := { s.lines with
        inputs := s.lines.inputs.set l { s.lines.inputs[l] with high := decide (e = .rising) } } }

/-- O4 (tier 1). POWER_ON and the RESET line hold the part with every block reset; RESET_RELEASE latches the straps
and loads the profile. (R179, R180, R128, R22, R53, R94, R135, R142, R157). The model's own, in notes/assumptions:
logs 4, 7, 34, 37. -/
def Obligations.ResetsHoldThePartAndReleaseLoadsTheProfile : Prop :=
  (∀ s : State, ∃ t, exec .powerOn s = .next t ∧ exec .resetLineAssert s = .next t ∧
    t = { State.reset with
      inReset := true
      ctl := { Control.reset with station := s.ctl.station }
      lines := { Lines.reset with inputs := s.lines.inputs.map fun l => ⟨.none, none, l.high⟩ }
      free := s.free
      pending := s.pending } ∧
    (∀ p : Port, (t.port p).up = false) ∧ (∀ i : Fin 8, t.lineLevel i = false) ∧
    ∀ p : Path, (t.path p).down.frames = [] ∧ (t.path p).up.frames = [] ∧
      (t.path p).queues.time = none ∧ (t.path p).queues.mgmt = []) ∧
    ∀ (p1 p0 : Bool) (s : State), ∃ t, exec (.resetRelease p1 p0) s = .next t ∧
    t = { State.reset with
      ctl := { Control.reset with station := s.ctl.station, profile := BitVec.ofBool p1 ++ BitVec.ofBool p0 }
      lines := { Lines.reset with outputs := t.lines.outputs, inputs := s.lines.inputs.map fun l => ⟨.none, none, l.high⟩ }
      gens := t.gens
      free := s.free
      pending := s.pending } ∧
    t.ctl.flags = 0 ∧
    (t.gens.toList.map (·.config)) =
      (match p1, p0 with
        | false, false => []
        | false, true => [⟨true, 25, 1, 0, .ndf⟩, ⟨true, 50, 1, 0, .off⟩, ⟨true, 48000, 1, 0, .off⟩]
        | true, false => [⟨true, 30000, 1001, 0, .df⟩, ⟨true, 60000, 1001, 0, .off⟩, ⟨true, 48000, 1, 0, .off⟩]
        | true, true => [⟨true, 25, 1, 0, .ndf⟩, ⟨true, 30000, 1001, 0, .df⟩, ⟨true, 48000, 1, 0, .off⟩,
            ⟨true, 1, 1, 0, .off⟩]) ++
      List.replicate (match p1, p0 with | false, false => 16 | true, true => 12 | _, _ => 13) ⟨false, 1, 1, 0, .off⟩ ∧
    (∀ g : Fin 16, (t.gens[g]).realigns = 0 ∧
      if (t.gens[g]).config.enabled then
        (t.gens[g]).condition = .running ∧ (t.gens[g]).next = some 1 ∧ (t.gens[g]).cause = .reset ∧
        (t.gens[g]).instant = some (t.gens[g].config.d * 1000000000 / t.gens[g].config.n : Nat) ∧ (t.gens[g]).last = none ∧
        (t.gens[g]).wraps = 0 ∧ (t.gens[g]).jams = 0 ∧
        (t.gens[g]).label = match (t.gens[g]).config.labelMode with
          | .off => none
          | .ndf => some ⟨⟨25, 0, 0, 0, 2160000⟩, some 0, some 2160000, 0, 0, 0, none⟩
          | .df => some ⟨⟨30, 2, 1798, 17982, 2589408⟩, some 0, some 2589411, 0, 0, 0, none⟩
      else t.gens[g] = .reset) ∧
    t.lines.outputs.toList.map (·.mode) =
      (match p1, p0 with
        | false, false => [.idle, .idle, .idle, .idle]
        | true, true => [.pulse, .pulse, .square, .pulse]
        | _, _ => [.pulse, .pulse, .square, .idle]) ++ [.idle, .idle, .idle, .idle] ∧
    ∀ i : Fin 8, t.lines.outputs[i] = { OutputLine.reset i with mode := (t.lines.outputs[i]).mode }

/-- O5 (tier 2). The timescale advances exactly by oscillator time times (1 + trim/16 ppb), in normal form, and holds
at its largest value. (R1, R2, R14, R144, R165). -/
def Obligations.TimescaleAdvancesAtTheTrimAndHolds : Prop :=
  ∀ (dt : Nat) (s : State), s.inReset = false → s.servo.Sound →
    exec (.timescaleHold dt) s = .next (s.elapse dt) ∧
    ∃ adv : Nat,
      ((adv * trimDenom + (s.elapse dt).servo.frac : Nat) : Int) =
        dt * ((trimDenom : Int) + s.servo.trim) + s.servo.frac ∧
      (s.elapse dt).servo.frac < trimDenom ∧
      (s.elapse dt).now = min (s.now + adv) maxUnits ∧
      TimeValue.normal (s.elapse dt).servo.time = true ∧
      (s.elapse dt).servo = { s.servo with
        time := (s.elapse dt).servo.time
        frac := (s.elapse dt).servo.frac
        timer := match s.servo.timer with
          | .running left => .running (left - adv)
          | other => other } ∧
      (s.elapse dt).osc = s.osc + dt ∧ (s.elapse dt).gens = s.gens ∧ (s.elapse dt).classifier = s.classifier ∧
      (∀ i : Fin 16, (s.elapse dt).sources.table[i] = (s.sources.table[i]).map fun e =>
        { e with
          sinceOffer := e.sinceOffer + adv
          sinceLost := e.sinceLost + adv
          sinceBeacon := e.sinceBeacon.map (· + adv) }) ∧
      (∀ i : Fin 32, (s.elapse dt).correction.rows[i] = (s.correction.rows[i]).map fun e => { e with age := e.age + adv }) ∧
      (∀ p : Path, (s.elapse dt).path p =
        { s.path p with measure := { (s.path p).measure with timer := (s.path p).measure.timer + adv } }) ∧
      (s.elapse dt).ctl = { s.ctl with timer := s.ctl.timer.map (· - adv) } ∧
      (s.elapse dt).lines = { s.lines with
        outputs := s.lines.outputs.map fun l => { l with pulseEnd := l.pulseEnd.map (· - adv) } } ∧
      (s.elapse dt).flow = { s.flow with
        rows := s.flow.rows.map fun r => { r with stats := { r.stats with timer := r.stats.timer.map (· - adv) } } } ∧
      (s.elapse dt).sources = { s.sources with table := (s.elapse dt).sources.table } ∧
      (s.elapse dt).correction = { s.correction with rows := (s.elapse dt).correction.rows } ∧
      (s.elapse dt).inReset = s.inReset ∧ (s.elapse dt).free = s.free ∧ (s.elapse dt).pending = s.pending

/-- O6 (tier 2). An offset is recorded and settles the state; while the quiet count is above zero it is then
discarded. (R4, R5, R16). -/
def Obligations.OffsetsUnderTheQuietCountAreDiscarded : Prop :=
  ∀ (e : Int) (s : State), 0 < s.servo.quiet →
    let quiet := fun v : Servo => { v with
      lastOffset := e
      quiet := v.quiet - 1
      count := { v.count with
        offsetsReceived := bump v.count.offsetsReceived, quietDiscards := bump v.count.quietDiscards } }
    (s.servo.state = .acquire ∨ s.servo.state = .locked →
      s.offsetArrival e = { s with servo := quiet s.servo }) ∧
    (s.servo.state = .freerun ∨ s.servo.state = .holdover →
      ∃ t, s.offsetArrival e = t ∧
      t.servo = { quiet s.servo with
        state := .acquire
        stage := s.servo.startStage
        inWindow := 0
        outlierCount := 0
        timer := if s.servo.state = .holdover then .stopped else s.servo.timer } ∧
      if s.servo.state = .holdover ∧ s.servo.lenient = true then
        Raised { s with servo := t.servo } Event.lockLost.set t
      else t = { s with servo := t.servo })

/-- O7 (tier 1). In LOCKED an offset at or above the outlier threshold is discarded; the one that reaches the limit
ends LOCKED (flag order: log 20). (R8, R16). The model's own, in notes/assumptions: log 20. -/
def Obligations.OutlierIsDiscardedUntilTheLimit : Prop :=
  ∀ (e : Int) (s : State), s.servo.state = .locked → s.servo.quiet = 0 → s.servo.outlierThreshold ≤ e.natAbs →
    if s.servo.outlierLimit ≤ s.servo.outlierCount + 1 then
      s.offsetArrival e = (State.raise .lockLost <| State.raise .outlierLimit { s with servo := { s.servo with
        lastOffset := e
        state := .acquire
        stage := s.servo.startStage
        inWindow := 0
        outlierCount := 0
        count := { s.servo.count with
          offsetsReceived := bump s.servo.count.offsetsReceived
          outliers := bump s.servo.count.outliers
          outlierExits := bump s.servo.count.outlierExits } } })
    else
      s.offsetArrival e = { s with servo := { s.servo with
        lastOffset := e
        outlierCount := s.servo.outlierCount + 1
        count := { s.servo.count with
          offsetsReceived := bump s.servo.count.offsetsReceived
          outliers := bump s.servo.count.outliers } } }

/-- O8 (tier 2). An offset below its threshold, or a refused step, drives accumulator and trim by the PI law and the
stage by the window test. (R4, R6, R8, R9, R10, R16). The model's own, in notes/assumptions: log 42. -/
def Obligations.PiLawAndWindowTest : Prop :=
  (∀ (e : Int) (s : State), s.servo.quiet = 0 → s.servo.inWindow ≤ 8 →
    (s.servo.state = .acquire ∧
        (e.natAbs < s.servo.stepThreshold ∨ (s.servo.stepGuard = true ∧ s.servo.hasLocked = true))) ∨
      (s.servo.state = .locked ∧ e.natAbs < s.servo.outlierThreshold) →
    ∃ t, s.offsetArrival e = t ∧
    t.servo.acc = max (-(s.servo.trimLimit : Int)) (min s.servo.trimLimit
      (s.servo.acc + Int.fdiv (16 * -e) (2 ^ (s.servo.stage + 4)))) ∧
    t.servo.trim = max (-(s.servo.trimLimit : Int)) (min s.servo.trimLimit
      (t.servo.acc + Int.fdiv (16 * -e) (2 ^ s.servo.stage))) ∧
    t.servo = { s.servo with
      lastOffset := e
      acc := t.servo.acc
      trim := t.servo.trim
      inWindow := t.servo.inWindow
      stage := t.servo.stage
      state := t.servo.state
      hasLocked := t.servo.hasLocked
      outlierCount := if t.servo.state = .locked then 0 else s.servo.outlierCount
      count := { s.servo.count with
        offsetsReceived := bump s.servo.count.offsetsReceived
        stepsRefused := if s.servo.state = .acquire ∧ s.servo.stepThreshold ≤ e.natAbs then
          bump s.servo.count.stepsRefused else s.servo.count.stepsRefused } } ∧
    (65536 / 4 ^ s.servo.stage ≤ e.natAbs →
      t.servo.inWindow = 0 ∧ t.servo.stage = s.servo.stage ∧ t.servo.state = s.servo.state ∧
      t.servo.hasLocked = s.servo.hasLocked) ∧
    (e.natAbs < 65536 / 4 ^ s.servo.stage → s.servo.inWindow < 7 →
      t.servo.inWindow = s.servo.inWindow + 1 ∧ t.servo.stage = s.servo.stage ∧ t.servo.state = s.servo.state ∧
      t.servo.hasLocked = s.servo.hasLocked) ∧
    (e.natAbs < 65536 / 4 ^ s.servo.stage → 7 ≤ s.servo.inWindow →
      s.servo.stage < max s.servo.startStage s.servo.finalStage →
      t.servo.inWindow = 0 ∧ t.servo.stage = s.servo.stage + 1 ∧ t.servo.state = s.servo.state ∧
      t.servo.hasLocked = s.servo.hasLocked) ∧
    (e.natAbs < 65536 / 4 ^ s.servo.stage → 7 ≤ s.servo.inWindow →
      max s.servo.startStage s.servo.finalStage ≤ s.servo.stage →
      t.servo.stage = s.servo.stage ∧ t.servo.state = .locked ∧
      t.servo.inWindow = (if s.servo.state = .acquire then 0 else 8) ∧
      t.servo.hasLocked = (if s.servo.state = .acquire then true else s.servo.hasLocked)) ∧
    (if s.servo.state = .acquire ∧ t.servo.state = .locked then
      Raised { s with servo := t.servo } Event.lockGained.set t
    else t = { s with servo := t.servo })) ∧
    ∀ (e : Int) (s : State), s.servo.state = .freerun ∨ s.servo.state = .holdover →
      let entered : State := { s with servo := { s.servo with
        state := .acquire
        stage := s.servo.startStage
        inWindow := 0
        outlierCount := 0
        timer := if s.servo.state = .holdover then .stopped else s.servo.timer } }
      s.offsetArrival e = State.offsetArrival e
        (if s.servo.state = .holdover ∧ s.servo.lenient = true then entered.raise .lockLost else entered)

/-- O9 (tier 2). In ACQUIRE an offset at the step threshold steps the timescale by its negative, and realigns every
enabled generator. (R3, R6, R7, R59, R105, R120, R121, R122, R135, R138, R139, R145). The model's own, in
notes/assumptions: logs 17, 25, 40, 50. -/
def Obligations.LargeOffsetInAcquireStepsTheTimescale : Prop :=
  ∀ (e : Int) (s : State), s.servo.state = .acquire → s.servo.quiet = 0 →
    s.servo.stepThreshold ≤ e.natAbs → (s.servo.stepGuard && s.servo.hasLocked) = false →
    TimeValue.normal s.servo.time = true →
    ∃ t, s.offsetArrival e = t ∧
    (
      let n : Int := (wholeNs s.servo.time : Int) - e
      t.servo.time = (if n < 0 then ⟨0, 0, 0⟩
        else if (secondsEnd * nsPerSec : Nat) ≤ n then ⟨281474976710655, 999999999, 65535⟩
        else ⟨n.toNat / 1000000000, n.toNat % 1000000000, s.servo.time.sub⟩) ∧
      (0 ≤ n → n < (secondsEnd * nsPerSec : Nat) → (t.now : Int) = s.now - e * unitsPerNs)) ∧
    TimeValue.normal t.servo.time = true ∧
    t.servo = { s.servo with
      time := t.servo.time
      lastOffset := e
      stage := s.servo.startStage
      inWindow := 0
      quiet := 2 ^ (s.servo.quietCode + 1)
      count := { s.servo.count with
        offsetsReceived := bump s.servo.count.offsetsReceived
        stepsTaken := bump s.servo.count.stepsTaken } } ∧
    (
      let sum : Int := s.correction.stepSum + (t.now - s.now)
      let fits := indexMin ≤ sum ∧ sum ≤ indexMax
      t.correction = { s.correction with
        stepSum := if fits then sum else (stepSumBeyond s.free sum).toInt } ∧
      t.free = if fits then s.free else s.free + 1) ∧
    t.ctl.isSet .step = true ∧
    (∀ g : Fin 16, if (s.gens[g]).config.enabled then
        let u : Int := wholeNs t.servo.time
        let a := if t.servo.time.sec = s.servo.time.sec ∧ t.servo.time.ns = s.servo.time.ns then
          (s.gens[g]).dueEmitted (s.gens[g]).config u else s.gens[g]
        Generator.Realigned s.sources.house u .step a t.gens[g] ∧ t.ctl.isSet .realign = true
      else t.gens[g] = s.gens[g]) ∧
    (∀ i : Fin 8, t.lines.outputs[i] =
      let l := s.lines.outputs[i]
      let a := s.gens[l.cadence]
      if a.config.enabled then
        l.afterRealign s.servo.lockIndication
          (decide (t.servo.time.sec = s.servo.time.sec ∧ t.servo.time.ns = s.servo.time.ns)) a.config (wholeNs t.servo.time) a
      else l) ∧
    t.lines.overflow = s.lines.overflow ∧
    t.sources = { s.sources with
      table := s.sources.table.map (·.map fun r => { r with leg := none, pending := none }) } ∧
    (∀ p : Path, (t.path p).measure.record = none) ∧
    t.flow = s.flow ∧ t.lines.fifo = s.lines.fifo ∧ t.lines.inputs = s.lines.inputs ∧
    t.classifier = s.classifier ∧ t.inReset = s.inReset ∧ t.osc = s.osc

/-- O10 (tier 2). HOLDOVER_EXPIRY ends a timer run out in FREERUN; selection changes move the servo by its state
(flag order: log 20). (R11, R12, R13, R14, R16, R17). The model's own, in notes/assumptions: logs 3, 20. -/
def Obligations.HoldoverExpiryAndSelectionMoveTheServo : Prop :=
  (∀ (dt : Nat) (s : State), s.inReset = false →
    let e := s.elapse dt
    if e.servo.timer = .running 0 then
      let b : State := { e with servo := { e.servo with
        state := .freerun
        timer := .stopped
        count := { e.servo.count with holdoverExpiries := bump e.servo.count.holdoverExpiries } } }
      exec (.holdoverExpiry dt) s = .next (if e.servo.lockIndication then
        (b.raise .freerunEntered).raise .lockLost else b.raise .freerunEntered)
    else exec (.holdoverExpiry dt) s = .next e) ∧
    ∀ (i j : Fin 16) (s : State),
    s.selectionChanged none (some i) = { s with servo := { s.servo with
      timer := match s.servo.state, s.servo.timer with
        | .holdover, .running left => .held left
        | _, other => other } } ∧
    (s.servo.state = .acquire ∨ s.servo.state = .locked →
      ∃ t, s.selectionChanged (some i) (some j) = t ∧
      t.servo = { s.servo with state := .acquire, stage := s.servo.startStage, inWindow := 0, outlierCount := 0 } ∧
      if s.servo.state = .locked then Raised { s with servo := t.servo } Event.lockLost.set t
      else t = { s with servo := t.servo }) ∧
    (s.servo.state = .freerun ∨ s.servo.state = .holdover → s.selectionChanged (some i) (some j) = s) ∧
    (s.servo.state = .freerun → s.selectionChanged (some i) none = s) ∧
    (s.servo.state = .acquire → s.selectionChanged (some i) none =
      State.raise .freerunEntered { s with servo := { s.servo with state := .freerun, trim := s.servo.acc } }) ∧
    (s.servo.state = .holdover → s.selectionChanged (some i) none = { s with servo := { s.servo with
      timer := match s.servo.timer with
        | .held left => .running left
        | other => other } }) ∧
    (s.servo.state = .locked →
      ∃ t, s.selectionChanged (some i) none = t ∧
      t.servo = { s.servo with
        state := .holdover
        trim := s.servo.acc
        timer := .running (s.servo.holdoverBudget * unitsPerSec) } ∧
      Raised { s with servo := t.servo }
        (if s.servo.lenient then Event.holdoverEntered.set else Event.holdoverEntered.set ||| Event.lockLost.set) t)

/-- O11 (tier 2). LINK_UP brings a DOWN port UP at its speed, makes its decision point, raises LINK_CHANGE and runs
selection. (R23, R24, R43, R49). The model's own, in notes/assumptions: logs 21, 24. -/
def Obligations.LinkUpBringsThePortUp : Prop :=
  ∀ (dt : Nat) (p : Port) (sp : Speed) (s : State), s.inReset = false →
    let e := s.elapse dt
    if (s.port p).up then exec (.linkUp dt p sp) s = .next e
    else
      let up := fun q : PortState => { q with up := true, speed := sp, receiving := none, sending := none }
      (p.isNet = true → (s.path p.path).up.frames = [] → (s.path p.path).queues.time = none →
        (s.path p.path).queues.mgmt = [] →
        exec (.linkUp dt p sp) s = .next (State.runSelection <| State.raise .linkChange <| e.modPath p.path fun q =>
          { q with net := up q.net, arb := { q.arb with idle := bump q.arb.idle } })) ∧
      (p.isNet = false → (s.path p.path).down.frames = [] →
        exec (.linkUp dt p sp) s = .next (State.runSelection <| State.raise .linkChange <| e.modPath p.path fun q =>
          { q with eq := up q.eq }))

/-- O12 (tier 2). LINK_DOWN of a network-side port empties its upstream buffer, queues, arbiter, Probe record,
residences and sources. (R24, R28, R38, R44, R47, R51, R69, R81, R86, R87). The model's own, in notes/assumptions:
logs 21, 24. -/
def Obligations.NetworkLinkLossEmptiesItsPath : Prop :=
  ∀ (dt : Nat) (p : Port) (s : State), s.inReset = false → p.isNet = true →
    let e := s.elapse dt
    let q := e.path p.path
    let becomesLost := fun x : SourceEntry => decide (x.path = p.path ∧ x.state ≠ .lost)
    let emptied : State := { e with
      correction := { e.correction with rows := e.correction.rows.map fun r => r.filter (·.path != p.path) }
      paths := e.paths.set p.path { q with
        net := { q.net with
          up := false
          receiving := none
          sending := none
          cuts := if q.net.receiving.isSome then bump q.net.cuts else q.net.cuts }
        up := { q.up with frames := [], linkDrops := bumpBy q.up.frames.length q.up.linkDrops }
        queues := { q.queues with
          time := none
          mgmt := []
          linkDiscards := bumpBy (q.queues.mgmt.length + if q.queues.time.isSome then 1 else 0) q.queues.linkDiscards }
        arb := { q.arb with hpSnap := ⟨false, false, false⟩, lpSnap := ⟨false, false, false⟩, turn := .hp }
        correction := { q.correction with
          orphans := bumpBy ((List.finRange 32).countP fun i => (e.correction.rows[i]).any (·.path == p.path))
            q.correction.orphans }
        measure := { q.measure with record := none } } }
    let changed := State.raise .linkChange emptied
    let n := (List.finRange 16).countP fun i => (e.sources.table[i]).any becomesLost
    let lost : State := State.modPath { changed with sources := { changed.sources with
        table := changed.sources.table.map fun r => r.map fun x =>
          if becomesLost x then { x with state := .lost, count := 0, sinceLost := 0 } else x } }
      p.path fun b => { b with sources := { b.sources with
        losses := if n = 0 then b.sources.losses else bumpBy n b.sources.losses } }
    let reported := if (s.sources.selected.bind fun i => e.sources.table[i]).any becomesLost then
      lost.raise .sourceLost else lost
    if (s.port p).up then
      ∃ t, exec (.linkDown dt p) s = .next t ∧ t.ctl.isSet .linkChange = true ∧
      t = State.runSelection reported ∧
      (t.path p.path).net = { q.net with
        up := false
        receiving := none
        sending := none
        cuts := if q.net.receiving.isSome then bump q.net.cuts else q.net.cuts } ∧
      (t.path p.path).eq = q.eq ∧ (t.path p.path).down = q.down ∧
      (t.path p.path).up = { q.up with frames := [], linkDrops := bumpBy q.up.frames.length q.up.linkDrops } ∧
      (t.path p.path).queues.time = none ∧ (t.path p.path).queues.mgmt = [] ∧
      (
        let discards := bumpBy (q.queues.mgmt.length + if q.queues.time.isSome then 1 else 0) q.queues.linkDiscards
        discards ≤ (t.path p.path).queues.linkDiscards ∧
        (s.ctl.destination = none → (t.path p.path).queues.linkDiscards = discards)) ∧
      (t.path p.path).queues.timeSent = q.queues.timeSent ∧ (t.path p.path).queues.mgmtSent = q.queues.mgmtSent ∧
      (t.path p.path).queues.mgmtDrops = q.queues.mgmtDrops ∧
      (
        let n := (List.finRange 32).countP fun i => (e.correction.rows[i]).any (·.path == p.path)
        (t.path p.path).correction = { q.correction with orphans := bumpBy n q.correction.orphans }) ∧
      (t.path p.path).arb = { q.arb with
        hpSnap := ⟨false, false, false⟩, lpSnap := ⟨false, false, false⟩, turn := .hp } ∧
      (t.path p.path).measure.record = none ∧
      (∀ i : Fin 32, t.correction.rows[i] = (e.correction.rows[i]).filter (·.path != p.path)) ∧
      (
        let lost := fun x : SourceEntry => decide (x.path = p.path ∧ x.state ≠ .lost)
        let n := (List.finRange 16).countP fun i => (e.sources.table[i]).any lost
        let chosen := s.sources.selected.bind fun i => e.sources.table[i]
        (∀ i : Fin 16, t.sources.table[i] = (e.sources.table[i]).map fun x =>
          if lost x then { x with state := .lost, count := 0, sinceLost := 0 } else x) ∧
        (t.path p.path).sources = { q.sources with losses := if n = 0 then q.sources.losses else bumpBy n q.sources.losses } ∧
        t.ctl.isSet .sourceLost = (s.ctl.isSet .sourceLost || chosen.any lost)) ∧
      t.ctl.isSet .residenceOrphan = s.ctl.isSet .residenceOrphan ∧
      t.flow = e.flow ∧ t.lines = e.lines ∧ t.classifier = e.classifier ∧ t.free = e.free ∧ t.osc = e.osc
    else exec (.linkDown dt p) s = .next e

/-- O13 (tier 1). LINK_DOWN of an equipment-side port flushes the downstream buffer and orphans the path's residences
(order: log 21). (R24, R28, R39, R44, R69). The model's own, in notes/assumptions: logs 21, 24. -/
def Obligations.EquipmentLinkLossFlushesDownstream : Prop :=
  ∀ (dt : Nat) (p : Port) (s : State), s.inReset = false → p.isNet = false →
    let e := s.elapse dt
    let held := (List.finRange 32).countP fun i => (e.correction.rows[i]).any (·.path == p.path)
    if (s.port p).up then
      exec (.linkDown dt p) s = .next (State.runSelection <| State.raise .linkChange
        { e with
          correction := { e.correction with rows := e.correction.rows.map fun r => r.filter (·.path != p.path) }
          paths := e.paths.set p.path (let q := e.path p.path
            { q with
              eq := { q.eq with
                up := false
                receiving := none
                sending := none
                cuts := if q.eq.receiving.isSome then bump q.eq.cuts else q.eq.cuts }
              down := { q.down with frames := [], linkDrops := bumpBy q.down.frames.length q.down.linkDrops }
              correction := { q.correction with orphans := bumpBy held q.correction.orphans } }) })
    else exec (.linkDown dt p) s = .next e

/-- O14 (tier 2). A THROUGH frame from an equipment-side port is refused on a DOWN port, dropped without room, or
admitted at the tail. (R37, R41, R42, R49). -/
def Obligations.UpstreamFrameIsAdmittedOrRefused : Prop :=
  (∀ (b : ThroughBuffer) (f : List Byte), b.hasRoom f = true ↔
    b.frames.length < 32 ∧ ((b.frames.map fun h => (h.bytes.length + 255) / 256).sum + (f.length + 255) / 256 ≤ 64)) ∧
    (∀ (dt : Nat) (p : Port) (f : List Byte) (stamp : Stamp) (s : State), s.inReset = false → p.isNet = false →
    (s.port p).up = true → (s.port p).receiving = some stamp → receiveDrop f = none →
    let e := s.elapse dt
    let b := e.modPort p fun q => { q with receiving := none, received := bump q.received }
    b.kindOf p f stamp = .through → isScxMalformed f = false →
    let q := b.path p.path
    let held : HeldFrame := ⟨f, .through, b.markOf p f, stamp⟩
    let buffer := q.up.frames
    (q.net.up = false → exec (.frameReceived dt p f) s =
      .next (b.modPath p.path fun q => { q with up := { q.up with linkDrops := bump q.up.linkDrops } })) ∧
    (q.net.up = true → q.up.hasRoom f = false → exec (.frameReceived dt p f) s =
      .next (State.raise .throughDrop
        (b.modPath p.path fun q => { q with up := { q.up with fullDrops := bump q.up.fullDrops } }))) ∧
    (q.net.up = true → q.up.hasRoom f = true → (buffer ≠ [] ∨ q.net.sending.isSome = true) →
      exec (.frameReceived dt p f) s = .next (b.modPath p.path fun q => { q with
        up := { q.up with frames := buffer ++ [held], admitted := bump q.up.admitted } })) ∧
    (q.net.up = true → q.up.hasRoom f = true → buffer = [] → q.net.sending = none → q.arb.throughClass ≠ .masked →
      ∃ t, exec (.frameReceived dt p f) s = .next t ∧ (t.path p.path).net.sending.isSome = true ∧
        (t.path p.path).up.frames = [held] ∧ t = { b with paths := b.paths.set p.path (t.path p.path) } ∧
        PathState.NoticeOnly { q with up := { q.up with frames := [held], admitted := bump q.up.admitted } }
          (t.path p.path)))

/-- O15 (tier 2). A THROUGH frame from a network-side port is refused, dropped or admitted, and leaves at once on an
idle port. (R37, R42, R43). -/
def Obligations.DownstreamFrameIsAdmittedOrRefused : Prop :=
  ∀ (dt : Nat) (p : Port) (f : List Byte) (stamp : Stamp) (s : State), s.inReset = false → p.isNet = true →
    (s.port p).up = true → (s.port p).receiving = some stamp → receiveDrop f = none →
    let e := s.elapse dt
    let b := e.modPort p fun q => { q with receiving := none, received := bump q.received }
    b.kindOf p f stamp = .through → isScxMalformed f = false →
    let q := b.path p.path
    let held : HeldFrame := ⟨f, .through, b.markOf p f, stamp⟩
    let buffer := q.down.frames
    (q.eq.up = false → exec (.frameReceived dt p f) s =
      .next (b.modPath p.path fun q => { q with down := { q.down with linkDrops := bump q.down.linkDrops } })) ∧
    (q.eq.up = true → q.down.hasRoom f = false → q.eq.sending.isSome = true → exec (.frameReceived dt p f) s =
      .next (State.raise .throughDrop
        (b.modPath p.path fun q => { q with down := { q.down with fullDrops := bump q.down.fullDrops } }))) ∧
    (q.eq.up = true → q.down.hasRoom f = true → q.eq.sending.isSome = true →
      exec (.frameReceived dt p f) s = .next (b.modPath p.path fun q => { q with
        down := { q.down with frames := buffer ++ [held], admitted := bump q.down.admitted } })) ∧
    (q.eq.up = true → q.down.hasRoom f = true → q.eq.sending = none → buffer = [] →
      exec (.frameReceived dt p f) s = .next (b.modPath p.path fun q => { q with
        down := { q.down with frames := [held], admitted := bump q.down.admitted }
        eq := { q.eq with sending := some ⟨.through, f⟩ } }))

/-- O16 (tier 2). LISTENED frames leave a copy and pass on, OWN REPLIES are consumed, MEDIA datagrams are offered and
pass on. (R32, R33, R36, R37). The model's own, in notes/assumptions: log 8. -/
def Obligations.ListenedCopiesAndOwnReplies : Prop :=
  ∀ (dt : Nat) (p : Port) (f : List Byte) (stamp : Stamp) (s : State), s.inReset = false →
    (s.port p).up = true → (s.port p).receiving = some stamp → receiveDrop f = none →
    let e := s.elapse dt
    let b := e.modPort p fun q => { q with receiving := none, received := bump q.received }
    (∀ m : Scx, frameScx f = some m →
      let c : ScxCopy := ⟨m, (readFrame f).src, stamp⟩
      let held : HeldFrame := ⟨f, .listened, b.markOf p f, stamp⟩
      (b.kindOf p f stamp = .listened →
        (∀ o, m.body = .offer o → exec (.frameReceived dt p f) s = .next (State.handDown p.path held
          (b.modPath p.path fun q => { q with inbox := { q.inbox with offers := q.inbox.offers ++ [c] } }))) ∧
        (∀ o, m.body = .beacon o → exec (.frameReceived dt p f) s = .next (State.handDown p.path held
          (b.modPath p.path fun q => { q with inbox := { q.inbox with beacons := q.inbox.beacons ++ [c] } }))) ∧
        ∀ o, m.body = .detail o → exec (.frameReceived dt p f) s = .next (State.handDown p.path held
          (b.modPath p.path fun q => { q with inbox := { q.inbox with details := q.inbox.details ++ [c] } }))) ∧
      (b.kindOf p f stamp = .ownReply → exec (.frameReceived dt p f) s =
        .next (b.modPath p.path fun q => { q with inbox := { q.inbox with replies := q.inbox.replies ++ [c] } }))) ∧
    ∀ d : MediaCopy, b.kindOf p f stamp = .media → b.mediaOf p f stamp = some d →
      exec (.frameReceived dt p f) s = .next (if p.isNet then
          State.handDown p.path ⟨f, .media, b.markOf p f, stamp⟩
            (b.modPath p.path fun q => { q with inbox := { q.inbox with mediaDown := q.inbox.mediaDown ++ [d] } })
        else
          State.handUp p.path ⟨f, .media, b.markOf p f, stamp⟩
            (b.modPath p.path fun q => { q with inbox := { q.inbox with mediaUp := q.inbox.mediaUp ++ [d] } }))

/-- O17 (tier 2). TRANSMIT_END removes the sent frame from its buffer or queue, counts it, and begins the next or
makes a decision point. (R43, R45, R46, R49, R50). The model's own, in notes/assumptions: log 24. -/
def Obligations.TransmissionsEnd : Prop :=
  (∀ (dt : Nat) (p : Port) (s : State), s.inReset = false → p.isNet = false →
    let e := s.elapse dt
    let q := e.path p.path
    (q.eq.sending = none → exec (.transmitEnd dt p) s = .next e) ∧
    (q.eq.up = true → q.eq.sending.isSome = true →
      let b := e.modPath p.path fun q => { q with
        eq := { q.eq with sending := none, transmitted := bump q.eq.transmitted }
        down := { q.down with frames := q.down.frames.tail } }
      exec (.transmitEnd dt p) s = .next (if q.down.frames.tail = [] then b else State.beginDown p.path b) ∧
      ((∀ f ∈ q.down.frames.tail.head?, f.mark = false) → exec (.transmitEnd dt p) s = .next (b.modPath p.path fun q =>
        { q with eq := { q.eq with sending := q.down.frames.head?.map fun f => ⟨.through, f.bytes⟩ } })))) ∧
    ∀ (dt : Nat) (p : Port) (s : State), s.inReset = false → p.isNet = true →
    let e := s.elapse dt
    ((e.path p.path).net.sending = none → exec (.transmitEnd dt p) s = .next e) ∧
    ∀ x : Sending, (e.path p.path).net.sending = some x → (e.path p.path).net.up = true →
      let n : PathState := { e.path p.path with net := { (e.path p.path).net with
        sending := none, transmitted := bump (e.path p.path).net.transmitted } }
      let q : PathState := match x.source with
        | .through => { n with up := { n.up with frames := n.up.frames.tail } }
        | .time => { n with queues := { n.queues with time := none, timeSent := bump n.queues.timeSent } }
        | .mgmt => { n with queues := { n.queues with mgmt := n.queues.mgmt.tail, mgmtSent := bump n.queues.mgmtSent } }
      let d := q.decision ⟨e.now, e.correction.stepSum⟩
      exec (.transmitEnd dt p) s = .next { e with paths := e.paths.set p.path d } ∧
      (q.anyPending = false → d = { q with arb := { q.arb with idle := bump q.arb.idle } }) ∧
      (q.anyPending = true → d.net.sending.isSome = true ∧ d.up = q.up ∧ d.queues = q.queues ∧ d.down = q.down)

/-- O18 (tier 2). At its start marker on EA or EB a marked Beacon or Detail is amended by its residence, or makes a
residence entry. (R59, R60, R61, R63, R67, R68). -/
def Obligations.MarkedBeaconAndDetailAreAmended : Prop :=
  ∀ (p : Path) (h : HeldFrame) (rest : List HeldFrame) (s : State), (s.path p).down.frames = h :: rest →
    let q := s.path p
    let res : Int := (s.now + q.eq.egressTrim * 65536) - h.stamp.time - (s.correction.stepSum - h.stamp.stepSum)
    let sat := fun c : Int => max (-9223372036854775808) (min 9223372036854775807 c)
    let full := fun c : Int => if c < -9223372036854775808 ∨ 9223372036854775807 < c then 1 else 0
    (h.mark = false → s.beginDown p = s.modPath p fun q =>
      { q with eq := { q.eq with sending := some ⟨.through, h.bytes⟩ } }) ∧
    ∀ (m : Scx) (o : MessageTime), h.mark = true → frameScx h.bytes = some m →
      (m.body = .beacon o → m.paired = false → s.beginDown p = s.modPath p fun q => { q with
        eq := { q.eq with sending := some ⟨.through, withCorrection h.bytes (sat (m.correction + res))⟩ }
        correction := { q.correction with
          singleCorrected := bump q.correction.singleCorrected
          saturations := if full (m.correction + res) = 1 then bump q.correction.saturations else q.correction.saturations } }) ∧
      (m.body = .beacon o → m.paired = true → s.beginDown p = State.recordResidence p m res (s.modPath p fun q =>
        { q with eq := { q.eq with sending := some ⟨.through, h.bytes⟩ } })) ∧
      (m.body = .detail o → ∀ (i : Fin 32) (x : ResidenceEntry), s.correction.findKey p m = some i →
        s.correction.rows[i] = some x → s.beginDown p = State.modPath
          { s with correction := { s.correction with rows := s.correction.rows.set i none } } p fun q => { q with
            eq := { q.eq with sending := some ⟨.through, withCorrection h.bytes (sat (m.correction + (x.residence + res)))⟩ }
            correction := { q.correction with
              matched := bump q.correction.matched
              saturations := if full (m.correction + (x.residence + res)) = 1 then bump q.correction.saturations
                else q.correction.saturations } }) ∧
      (m.body = .detail o → s.correction.findKey p m = none → s.beginDown p = State.raise .detailUnmatched
        (s.modPath p fun q => { q with
          eq := { q.eq with sending := some ⟨.through, withCorrection h.bytes (sat (m.correction + res))⟩ }
          correction := { q.correction with
            unmatched := bump q.correction.unmatched
            saturations := if full (m.correction + res) = 1 then bump q.correction.saturations
              else q.correction.saturations } }))

/-- O19 (tier 1). A served frame leaves NA or NB unchanged, but a marked Probe with its residence added; the part's
own Probe hands over its departure. (R43, R45, R59, R60, R62, R97, R184). -/
def Obligations.MarkedProbeLeavesWithItsResidence : Prop :=
  ∀ (i : Instant) (p : PathState),
    (∀ (h : HeldFrame) (rest : List HeldFrame) (m : Scx), p.up.frames = h :: rest → h.mark = true →
      frameScx h.bytes = some m →
      let c : Int := m.correction +
        ((i.time + p.net.egressTrim * 65536) - h.stamp.time - (i.stepSum - h.stamp.stepSum))
      p.serve i .through = { p with
        arb := { p.arb with throughServed := bump p.arb.throughServed }
        net := { p.net with sending := some ⟨.through, withCorrection h.bytes
          (max (-9223372036854775808) (min 9223372036854775807 c))⟩ }
        correction := { p.correction with
          probesCorrected := bump p.correction.probesCorrected
          saturations := if c < -9223372036854775808 ∨ 9223372036854775807 < c then bump p.correction.saturations
            else p.correction.saturations } }) ∧
    (∀ (k : QueuedProbe) (r : ProbeRecord), p.queues.time = some k → p.measure.record = some r →
      r.departure = none → r.sequence = k.sequence →
      p.serve i .time = { p with
        arb := { p.arb with timeServed := bump p.arb.timeServed }
        net := { p.net with sending := some ⟨.time, k.bytes⟩ }
        measure := { p.measure with record := some { r with departure := some (i.time + p.net.egressTrim * 65536) } } }) ∧
    (∀ (h : HeldFrame) (rest : List HeldFrame), p.up.frames = h :: rest → h.mark = false ∨ frameScx h.bytes = none →
      p.serve i .through = { p with
        arb := { p.arb with throughServed := bump p.arb.throughServed }
        net := { p.net with sending := some ⟨.through, h.bytes⟩ } }) ∧
    (∀ k : QueuedProbe, p.queues.time = some k →
      (∀ r : ProbeRecord, p.measure.record = some r → r.departure.isSome = true ∨ r.sequence ≠ k.sequence) →
      p.serve i .time = { p with
        arb := { p.arb with timeServed := bump p.arb.timeServed }
        net := { p.net with sending := some ⟨.time, k.bytes⟩ } }) ∧
    ∀ (f : List Byte) (rest : List (List Byte)), p.queues.mgmt = f :: rest →
      p.serve i .mgmt = { p with
        arb := { p.arb with mgmtServed := bump p.arb.mgmtServed }
        net := { p.net with sending := some ⟨.mgmt, f⟩ } }

/-- O20 (tier 2). INGRESS_START_MARKER stamps a frame at an UP port; FRAME_RECEIVED drops and counts an unsound one,
else classifies it. (R25, R26, R28, R59). The model's own, in notes/assumptions: logs 22, 23. -/
def Obligations.FramesAreStampedAndCheckedOnReception : Prop :=
  (∀ (dt : Nat) (p : Port) (s : State), s.inReset = false →
    let e := s.elapse dt
    exec (.ingressStartMarker dt p) s = .next (if (s.port p).up then
        e.modPort p fun q => { q with receiving := some ⟨e.now - (s.port p).ingressTrim * 65536, s.correction.stepSum⟩ }
      else e)) ∧
    (∀ (dt : Nat) (p : Port) (f : List Byte) (s : State), s.inReset = false →
    let e := s.elapse dt
    ((s.port p).up = false ∨ (s.port p).receiving = none → exec (.frameReceived dt p f) s = .next e) ∧
    ∀ stamp : Stamp, (s.port p).up = true → (s.port p).receiving = some stamp →
      (checkOk f = false ∨ f.length < 64 →
        exec (.frameReceived dt p f) s = .next (e.modPort p fun q =>
          { q with receiving := none, checkDrops := bump q.checkDrops })) ∧
      (checkOk f = true → 9216 < f.length →
        exec (.frameReceived dt p f) s = .next (e.modPort p fun q =>
          { q with receiving := none, oversize := bump q.oversize })) ∧
      (checkOk f = true → 64 ≤ f.length → f.length ≤ 9216 →
        exec (.frameReceived dt p f) s = .next (State.classified p f stamp (e.modPort p fun q =>
          { q with receiving := none, received := bump q.received }))))

/-- O21 (tier 2). A frame has exactly the kind of the first test of R30 it meets, and the mark of R34; PASSING SCX
and malformed frames pass on. (R29, R30, R31, R32, R33, R34, R35, R36). -/
def Obligations.FramesHaveOneKindOfTheirSideAndMark : Prop :=
  (∀ (p : Port) (f : List Byte) (stamp : Stamp) (s : State),
    let control := (readFrame f).etype = controlType ∧ (readFrame f).stacked = false ∧ (readFrame f).dst = s.ctl.station
    let timed := fun m : Scx => (∃ o, m.body = .offer o) ∨ (∃ o, m.body = .beacon o) ∨ ∃ o, m.body = .detail o
    let own := fun m : Scx => ∃ r k, m.body = .reply r (s.identity p.path) k
    let listened := fun m : Scx => timed m ∧ m.domain = s.classifier.listenDomain ∧
      m.sender ≠ s.identity .a ∧ m.sender ≠ s.identity .b
    let media := s.flow.enable = true ∧
      ∃ (i : Fin 64) (m : MediaCopy), frameMedia f stamp = some m ∧ (s.flow.rows[i]).config.matches p m.group m.port = true
    (s.kindOf p f stamp = .control ↔ p.isNet = true ∧ control) ∧
    (s.kindOf p f stamp = .refusedControl ↔ p.isNet = false ∧ control) ∧
    (s.kindOf p f stamp = .ownReply ↔ p.isNet = true ∧ ¬ control ∧ ∃ m, frameScx f = some m ∧ own m) ∧
    (s.kindOf p f stamp = .listened ↔ p.isNet = true ∧ ¬ control ∧ ∃ m, frameScx f = some m ∧ listened m) ∧
    (s.kindOf p f stamp = .foreignTime ↔ p.isNet = false ∧ ¬ control ∧ ∃ m, frameScx f = some m ∧ timed m) ∧
    (s.kindOf p f stamp = .passingScx ↔ ¬ control ∧ ∃ m, frameScx f = some m ∧
      if p.isNet then ¬ own m ∧ ¬ listened m else ¬ timed m) ∧
    (s.kindOf p f stamp = .media ↔ ¬ control ∧ frameScx f = none ∧ media) ∧
    (s.kindOf p f stamp = .through ↔ ¬ control ∧ frameScx f = none ∧ ¬ media)) ∧
    (∀ (dt : Nat) (p : Port) (f : List Byte) (stamp : Stamp) (s : State), s.inReset = false →
      (s.port p).up = true → (s.port p).receiving = some stamp → receiveDrop f = none →
      let b := (s.elapse dt).modPort p fun q => { q with receiving := none, received := bump q.received }
      let held := fun k : Kind => (⟨f, k, b.markOf p f, stamp⟩ : HeldFrame)
      let on := fun (h : HeldFrame) (t : State) => if p.isNet then State.handDown p.path h t else State.handUp p.path h t
      let r := readFrame f
      (b.kindOf p f stamp = .passingScx → exec (.frameReceived dt p f) s = .next (on (held .passingScx) b)) ∧
      (r.etype = scxType → r.stacked = false → r.payload ≠ [] → scxVersion r.payload = 1 → scxWellFormed r.payload = false →
        b.kindOf p f stamp = .through ∧ b.markOf p f = false ∧
        exec (.frameReceived dt p f) s = .next (on (held .through) (b.modPath p.path fun q => { q with
          classified := { q.classified with scxMalformed := bump q.classified.scxMalformed } })))) ∧
    (∀ (p : Port) (f : List Byte) (s : State), s.markOf p f = true ↔
    ∃ m, frameScx f = some m ∧
      s.classifier.windowLow ≤ m.domain ∧ m.domain ≤ s.classifier.windowHigh ∧
      ¬ (s.classifier.opaqueLow ≤ m.domain ∧ m.domain ≤ s.classifier.opaqueHigh) ∧
      ((p.isNet = true ∧ ∃ o, m.body = .beacon o ∨ m.body = .detail o) ∨ (p.isNet = false ∧ m.body = .probe)))

/-- O22 (tier 2). CONTROL frames go in hand, wait or overrun, REFUSED CONTROL is dropped, FOREIGN TIME is flagged and
passed or blocked. (R31, R35, R169). The model's own, in notes/assumptions: log 10. -/
def Obligations.ControlAndForeignTimeFrames : Prop :=
  (∀ (dt : Nat) (p : Port) (f : List Byte) (stamp : Stamp) (s : State), s.inReset = false →
    (s.port p).up = true → (s.port p).receiving = some stamp → receiveDrop f = none → s.isControl f = true →
    let e := s.elapse dt
    let b := e.modPort p fun q => { q with receiving := none, received := bump q.received }
    if p.isNet then
      let k := b.modPath p.path fun q => { q with
        classified := { q.classified with controlTaken := bump q.classified.controlTaken } }
      (s.ctl.executing = none → exec (.frameReceived dt p f) s =
        .next { k with ctl := { k.ctl with executing := some ⟨⟨p.path, f⟩, false, [], [], 0⟩ } }) ∧
      (s.ctl.executing.isSome = true → s.ctl.waiting.get p.path = none → exec (.frameReceived dt p f) s =
        .next { k with ctl := { k.ctl with waiting := k.ctl.waiting.set p.path (some ⟨⟨p.path, f⟩, s.osc + dt⟩) } }) ∧
      (s.ctl.executing.isSome = true → (s.ctl.waiting.get p.path).isSome = true → exec (.frameReceived dt p f) s =
        .next (State.raise .mgmtDrop
          { k with ctl := { k.ctl with count := { k.ctl.count with overruns := bump k.ctl.count.overruns } } }))
    else
      exec (.frameReceived dt p f) s = .next (State.raise .mgmtDrop (b.modPath p.path fun q => { q with
        classified := { q.classified with controlRefused := bump q.classified.controlRefused } }))) ∧
    (∀ (dt : Nat) (p : Port) (f : List Byte) (stamp : Stamp) (s : State), s.inReset = false →
    (s.port p).up = true → (s.port p).receiving = some stamp → receiveDrop f = none →
    let e := s.elapse dt
    let b := e.modPort p fun q => { q with receiving := none, received := bump q.received }
    b.kindOf p f stamp = .foreignTime →
    let k := State.raise .foreignTime (b.modPath p.path fun q => { q with
      classified := { q.classified with foreignTime := bump q.classified.foreignTime } })
    exec (.frameReceived dt p f) s = .next (if s.classifier.foreignBlock then
        k.modPath p.path fun q => { q with
          classified := { q.classified with foreignDrops := bump q.classified.foreignDrops } }
      else k.handUp p.path ⟨f, .foreignTime, b.markOf p f, stamp⟩))

/-- O23 (tier 2). A decision point serves a pending requester whenever there is one; HP rounds alternate with one LP
frame, members in cyclic order. (R48, R50). -/
def Obligations.ArbiterServesWheneverOneIsPending : Prop :=
  (∀ (i : Instant) (p : PathState),
    (p.anyPending = true → ∃ r q, p.takeTurns 4 = (some r, q) ∧ p.isPending r = true ∧ p.decision i = q.serve i r ∧
      q = { p with arb := { p.arb with
        hpSnap := q.arb.hpSnap, lpSnap := q.arb.lpSnap, hpPointer := q.arb.hpPointer, lpPointer := q.arb.lpPointer
        turn := q.arb.turn, skips := q.arb.skips } }) ∧
    (p.anyPending = false → p.decision i = { p with arb := { p.arb with idle := bump p.arb.idle } })) ∧
    (∀ p : PathState, p.arb.hpSnap = ⟨false, false, false⟩ → p.arb.lpSnap = ⟨false, false, false⟩ → p.arb.turn = .hp →
    (∀ r : Requester, p.isPending r = true → p.arb.classOf r = .hp →
      (∀ r', p.isPending r' = true → p.arb.classOf r' = .hp → r' = r) →
      ∃ q, p.takeTurns 4 = (some r, q) ∧ q.arb.turn = .lp ∧ q.arb.hpPointer = r ∧ q.arb.lpSnap = ⟨false, false, false⟩) ∧
    ((∀ r, p.isPending r = true → p.arb.classOf r = .lp) → p.anyPending = true →
      ∃ r q, p.takeTurns 4 = (some r, q) ∧ p.isPending r = true ∧ p.arb.classOf r = .lp ∧ q.arb.turn = .hp ∧
        q.arb.lpPointer = r)) ∧
    ∀ (n : Nat) (p : PathState),
      let hp := decide (p.arb.turn = .hp)
      let held := if hp then p.arb.hpSnap else p.arb.lpSnap
      let fresh := fun r : Requester => p.isPending r && decide (p.arb.classOf r = if hp then .hp else .lp)
      let member := fun r : Requester => if held.through || held.time || held.mgmt then
        (match r with | .through => held.through | .time => held.time | .mgmt => held.mgmt) else fresh r
      let order : List Requester := match if hp then p.arb.hpPointer else p.arb.lpPointer with
        | .through => [.time, .mgmt, .through]
        | .time => [.mgmt, .through, .time]
        | .mgmt => [.through, .time, .mgmt]
      let turned := fun (left : Requester → Bool) (served : Option Requester) (skipped : Nat) => ({ p with arb :=
        let snap : Snapshot := ⟨left .through, left .time, left .mgmt⟩
        if hp then { p.arb with
          hpSnap := snap
          hpPointer := served.getD p.arb.hpPointer
          skips := bumpBy skipped p.arb.skips
          turn := if snap.through || snap.time || snap.mgmt then .hp else .lp }
        else { p.arb with
          lpSnap := snap
          lpPointer := served.getD p.arb.lpPointer
          skips := bumpBy skipped p.arb.skips
          turn := .hp } } : PathState)
      (∀ before r after, order = before ++ r :: after → member r = true → p.isPending r = true →
        (∀ r' ∈ before, member r' = true → p.isPending r' = false) →
        p.takeTurns (n + 1) =
          (some r, turned (fun r' => after.contains r' && member r') (some r) (before.countP member))) ∧
      ((∀ r, member r = true → p.isPending r = false) →
        p.takeTurns (n + 1) = (turned (fun _ => false) none (order.countP member)).takeTurns n)

/-- O24 (tier 2). A paired Beacon's residence takes its key's row, a free row or the oldest; RESIDENCE_EXPIRY orphans
an overdue entry. (R63, R64, R65, R66). The model's own, in notes/assumptions: log 3. -/
def Obligations.ResidenceEntriesComeAndExpire : Prop :=
  (∀ (p : Path) (m : Scx) (res : Int) (s : State),
    let new := fun (i : Fin 32) (t : State) => { t with correction := { t.correction with
      rows := t.correction.rows.set i
        (some ⟨p, m.sender, m.domain, m.sequence, res, s.servo.time, 0, s.correction.nextPlace⟩)
      nextPlace := s.correction.nextPlace + 1 } }
    (∀ i, s.correction.findKey p m = some i → s.recordResidence p m res = (new i s).modPath p fun q =>
      { q with correction := { q.correction with duplicates := bump q.correction.duplicates } }) ∧
    (∀ i, s.correction.findKey p m = none → freeRow s.correction.rows = some i →
      s.recordResidence p m res = (new i s).modPath p fun q =>
        { q with correction := { q.correction with created := bump q.correction.created } }) ∧
    (s.correction.findKey p m = none → freeRow s.correction.rows = none →
      ∃ (i : Fin 32) (x : ResidenceEntry), s.correction.rows[i] = some x ∧
        (∀ (j : Fin 32) (y : ResidenceEntry), s.correction.rows[j] = some y → x.place ≤ y.place) ∧
        s.recordResidence p m res = State.raise .residenceEvict (((new i s).modPath x.path fun q =>
          { q with correction := { q.correction with evictions := bump q.correction.evictions } }).modPath p fun q =>
          { q with correction := { q.correction with created := bump q.correction.created } }))) ∧
    (∀ (dt : Nat) (i : Fin 32) (s : State), s.inReset = false →
    let e := s.elapse dt
    (e.correction.rows[i] = none → exec (.residenceExpiry dt i) s = .next e) ∧
    ∀ x : ResidenceEntry, e.correction.rows[i] = some x →
      exec (.residenceExpiry dt i) s = .next (if e.correction.lifetime * 65536000000 ≤ x.age then
          State.raise .residenceOrphan (State.modPath
            { e with correction := { e.correction with rows := e.correction.rows.set i none } } x.path fun q =>
              { q with correction := { q.correction with orphans := bump q.correction.orphans } })
        else e))

/-- O25 (tier 2). A run keeps an eligible selection or moves to the best eligible entry, sets both leads, and reports
a change to servo and house items. (R85, R86, R87, R89). -/
def Obligations.SelectionRunFollowsTheTable : Prop :=
  ∀ s : State,
    let t := s.runSelection
    let best := s.bestEligible fun _ => true
    t.sources.selected = s.nextSelected ∧
    (∀ i, t.sources.selected = some i → s.rowEligible i = true ∧ t.rowEligible i = true) ∧
    (best = none → t.sources.selected = none) ∧
    (s.sources.selected = none → t.sources.selected = best) ∧
    (∀ i, s.sources.selected = some i → s.rowEligible i = false → t.sources.selected = best) ∧
    (∀ i, s.sources.selected = some i → s.rowEligible i = true → s.sources.revertive = false →
      t.sources.selected = some i) ∧
    (∀ i j x y, s.sources.selected = some i → s.rowEligible i = true → s.sources.revertive = true → best = some j →
      s.sources.table[j] = some x → s.sources.table[i] = some y →
      t.sources.selected = if firstLower x.quality y.quality then some j else some i) ∧
    (∀ p : Path, (t.path p).measure.lead = s.leadFor s.nextSelected p) ∧
    (∀ (p : Path) (sel : Option (Fin 16)), s.leadFor sel p =
      match sel.bind fun i => (s.sources.table[i]).filter (·.path == p) with
        | some x => some x.sender
        | none => (s.bestEligible fun x => x.path == p).bind fun j => (s.sources.table[j]).map (·.sender)) ∧
    (∀ i x, t.sources.selected = some i → s.sources.table[i] = some x →
      (t.path x.path).measure.lead = some x.sender) ∧
    t.sources.table = s.sources.table ∧ t.sources.rules = s.sources.rules ∧
    t.sources.qualCount = s.sources.qualCount ∧ t.sources.lossLimit = s.sources.lossLimit ∧
    t.sources.preferred = s.sources.preferred ∧ t.sources.revertive = s.sources.revertive ∧
    t.lines = s.lines ∧ t.flow = s.flow ∧ t.classifier = s.classifier ∧ t.inReset = s.inReset ∧ t.osc = s.osc ∧
    (
      let led := (s.modPath .a fun q => { q with measure := { q.measure with lead := s.leadFor s.nextSelected .a } }).modPath .b
        fun q => { q with measure := { q.measure with lead := s.leadFor s.nextSelected .b } }
      if s.nextSelected = s.sources.selected then t = led
      else
        let raised := State.raise .sourceChanged { led with sources := { led.sources with selected := s.nextSelected } }
        let told := State.selectionChanged s.sources.selected s.nextSelected
          { raised with sources := { raised.sources with changes := bump s.sources.changes } }
        t.ctl.isSet .sourceChanged = true ∧ t.sources.changes = bump s.sources.changes ∧
        (s.nextSelected = none → t = told ∧ t.sources.house = s.sources.house ∧ t.gens = s.gens) ∧
        ∀ (i : Fin 16) (x : SourceEntry), s.nextSelected = some i → s.sources.table[i] = some x →
          let old := s.sources.house
          let h : HouseItems := { old with
            utc := if old.pinUtc = false ∧ x.offer.utcValid = true then x.offer.utc else old.utc
            zone := match old.pinZone, x.offer.house with | false, some v => v.zone | _, _ => old.zone
            jam := match old.pinJam, x.offer.house with | false, some v => v.jam | _, _ => old.jam }
          t = { told with
            sources := { told.sources with house := h }
            gens := if h = old then s.gens else s.gens.map (·.houseChanged h) })

/-- O26 (tier 2). Eligibility is the five tests; the comparison has no ties among distinct entries; no eligible entry
beats the best one. (R82, R84, R85). -/
def Obligations.BestEligibleEntryIsUnbeaten : Prop :=
  (∀ (s : State) (i : Fin 16), s.rowEligible i = true ↔
    ∃ x : SourceEntry, s.sources.table[i] = some x ∧ x.state = .qualified ∧ x.mute = false ∧ x.barred = false ∧
      (s.path x.path).net.up = true ∧ x.offer.steps < 255) ∧
    (∀ (pref : Path) (a b c : SourceEntry),
      a.better pref a = false ∧
      (a.path ≠ b.path ∨ a.sender ≠ b.sender → a.better pref b = !(b.better pref a)) ∧
      (a.better pref b = true → b.better pref c = true → a.better pref c = true) ∧
      (firstLower a.quality b.quality = true → a.better pref b = true)) ∧
    ∀ s : State,
      (∀ i, (s.bestEligible fun _ => true) = some i → s.rowEligible i = true ∧
        ∀ (j : Fin 16) (x y : SourceEntry), s.rowEligible j = true → s.sources.table[i] = some x →
          s.sources.table[j] = some y → y.better s.sources.preferred x = false) ∧
      ((s.bestEligible fun _ => true) = none ↔ ∀ i : Fin 16, s.rowEligible i = false)

/-- O27 (tier 2). OFFER_TAKEN of an unknown key fills the lowest free row with a fresh mute entry; of a LOST key it
revives the row. (R74, R75, R76, R78, R83). The model's own, in notes/assumptions: logs 8, 45. -/
def Obligations.OfferCreatesOrRevivesAnEntry : Prop :=
  ∀ (dt : Nat) (p : Path) (s : State), s.inReset = false →
    let e := s.elapse dt
    ((s.path p).inbox.offers = [] → exec (.offerTaken dt p) s = .next e) ∧
    ∀ (c : ScxCopy) (rest : List ScxCopy) (o : OfferBody), (s.path p).inbox.offers = c :: rest →
      c.msg.body = .offer o →
      let ok := decide (s.sources.qualCount ≤ 1)
      let st := s.sources.standing c.msg.sender p
      let entry : SourceEntry :=
        { sender := c.msg.sender, path := p, station := c.source, offer := o
          offerExp := max (-3) (min 4 c.msg.exponent), beaconExp := none, state := if ok then .qualified else .new, count := 1
          lastOffer := c.stamp.time, lastBeacon := none, mute := true, ruleRow := st.1, rank := st.2.1
          barred := st.2.2, sinceOffer := 0, sinceLost := 0, sinceBeacon := none, pending := none, leg := none
          window := [] }
      let put := fun i : Fin 16 => { e with sources := { e.sources with table := e.sources.table.set i (some entry) } }
      (∀ i, s.sources.findKey c.msg.sender p = none → freeRow s.sources.table = some i →
        exec (.offerTaken dt p) s = .next (State.runSelection ((put i).modPath p fun q => { q with
          inbox := { q.inbox with offers := rest }
          sources := { q.sources with
            offersTaken := bump q.sources.offersTaken, created := bump q.sources.created
            qualifications := if ok then bump q.sources.qualifications else q.sources.qualifications } }))) ∧
      ∀ i x, s.sources.findKey c.msg.sender p = some i → s.sources.table[i] = some x → x.state = .lost →
        exec (.offerTaken dt p) s = .next (State.runSelection ((put i).modPath p fun q => { q with
          inbox := { q.inbox with offers := rest }
          sources := { q.sources with
            offersTaken := bump q.sources.offersTaken, revivals := bump q.sources.revivals
            qualifications := if ok then bump q.sources.qualifications else q.sources.qualifications } }))

/-- O28 (tier 2). OFFER_TAKEN of a NEW or QUALIFIED entry replaces its Offer fields, counts it, restarts its
deadline, and may run selection. (R74, R76, R77, R86, R89). The model's own, in notes/assumptions: log 45. -/
def Obligations.OfferUpdatesAnEntry : Prop :=
  ∀ (dt : Nat) (p : Path) (s : State), s.inReset = false →
    let e := s.elapse dt
    ∀ (c : ScxCopy) (rest : List ScxCopy) (o : OfferBody) (i : Fin 16) (x : SourceEntry),
      (s.path p).inbox.offers = c :: rest → c.msg.body = .offer o → s.sources.findKey c.msg.sender p = some i →
      e.sources.table[i] = some x → x.state ≠ .lost →
      let n := min 8 (x.count + 1)
      let ok := decide (x.state = .new ∧ s.sources.qualCount ≤ n)
      let y : SourceEntry := { x with
        station := c.source, offer := o, offerExp := max (-3) (min 4 c.msg.exponent), lastOffer := c.stamp.time
        sinceOffer := 0, count := n, state := if ok then .qualified else x.state }
      let put : State := { e with sources := { e.sources with table := e.sources.table.set i (some y) } }
      let b := put.modPath p fun q => { q with
        inbox := { q.inbox with offers := rest }
        sources := { q.sources with
          offersTaken := bump q.sources.offersTaken
          qualifications := if ok then bump q.sources.qualifications else q.sources.qualifications } }
      let changed := x.offer.tier ≠ o.tier ∨ x.offer.accuracy ≠ o.accuracy ∨ x.offer.stability ≠ o.stability ∨
        x.offer.steps ≠ o.steps
      let run := if ok = true ∨ changed then b.runSelection else b
      exec (.offerTaken dt p) s = .next (if run.sources.selected = some i then run.loadHouse else run)

/-- O29 (tier 2). OFFER_TAKEN of a new key at 16 entries: it takes the longest LOST row, else beats the worst
non-selected entry, else is dropped. (R83, R84, R88). The model's own, in notes/assumptions: logs 8, 19, 45. -/
def Obligations.FullTableReplacesOrDropsTheNewcomer : Prop :=
  (∀ (c : ScxCopy) (o : OfferBody) (p : Path) (s : State),
    let new := s.sources.standing c.msg.sender p
    let without := fun (i : Fin 16) (x : SourceEntry) (f : SourceCounters → SourceCounters) => State.modPath
      { s with sources := { s.sources with table := s.sources.table.set i none } } x.path fun q => { q with
        sources := f q.sources
        measure := { q.measure with record := q.measure.record.filter (·.target != x.sender) } }
    let ok := decide (s.sources.qualCount ≤ 1)
    let entry : SourceEntry :=
      { sender := c.msg.sender, path := p, station := c.source, offer := o
        offerExp := max (-3) (min 4 c.msg.exponent), beaconExp := none, state := if ok then .qualified else .new, count := 1
        lastOffer := c.stamp.time, lastBeacon := none, mute := true, ruleRow := new.1, rank := new.2.1
        barred := new.2.2, sinceOffer := 0, sinceLost := 0, sinceBeacon := none, pending := none, leg := none
        window := [] }
    let created := fun (i : Fin 16) (b : State) => State.runSelection (State.modPath
      { b with sources := { b.sources with table := b.sources.table.set i (some entry) } } p fun q => { q with
        sources := { q.sources with
          offersTaken := bump q.sources.offersTaken, created := bump q.sources.created
          qualifications := if ok then bump q.sources.qualifications else q.sources.qualifications } })
    let dropped := State.raise .sourceTableFull (s.modPath p fun q =>
      { q with sources := { q.sources with tableFull := bump q.sources.tableFull } })
    (∀ i x, s.sources.longestLost = [i] → s.sources.table[i] = some x →
      s.offerTableFull c o p = created i (without i x fun k => { k with purges := bump k.purges })) ∧
    (2 ≤ s.sources.longestLost.length → ∃ i ∈ s.sources.longestLost, ∃ x, s.sources.table[i] = some x ∧
      s.offerTableFull c o p =
        created i { without i x fun k => { k with purges := bump k.purges } with free := s.free + 1 }) ∧
    (∀ i ∈ s.sources.longestLost, ∃ x, s.sources.table[i] = some x ∧ x.state = .lost ∧
      ∀ (j : Fin 16) (y : SourceEntry), s.sources.table[j] = some y → y.state = .lost → y.sinceLost ≤ x.sinceLost) ∧
    (s.sources.longestLost = [] →
      ∀ (j : Fin 16) (y : SourceEntry), s.sources.table[j] = some y → y.state ≠ .lost) ∧
    (∀ i x, s.sources.longestLost = [] → s.sources.worst = some i → s.sources.table[i] = some x →
      s.offerTableFull c o p =
        if new.2.2 = false ∧ firstLower (qualityOf new.2.1 o) x.quality = true then
          created i (without i x fun k => { k with replacements := bump k.replacements })
        else dropped) ∧
    (s.sources.longestLost = [] → s.sources.worst = none → s.offerTableFull c o p = dropped) ∧
    (s.sources.longestLost = [] →
      (∀ (j : Fin 16) (y : SourceEntry), s.sources.table[j] = some y → s.sources.selected ≠ some j →
        firstLower (qualityOf new.2.1 o) y.quality = false) →
      s.offerTableFull c o p = dropped) ∧
    (∀ i, s.sources.worst = some i → s.sources.selected ≠ some i ∧ ∃ x, s.sources.table[i] = some x ∧
      ∀ (j : Fin 16) (y : SourceEntry), s.sources.table[j] = some y → s.sources.selected ≠ some j →
        (y.barred = true → x.barred = true) ∧
        (y.barred = x.barred → x.better s.sources.preferred y = false)) ∧
    (s.sources.worst = none → ∀ (j : Fin 16) (y : SourceEntry), s.sources.table[j] = some y → s.sources.selected = some j)) ∧
    ∀ (dt : Nat) (p : Path) (s : State) (c : ScxCopy) (rest : List ScxCopy) (o : OfferBody), s.inReset = false →
      (s.path p).inbox.offers = c :: rest → c.msg.body = .offer o → s.sources.findKey c.msg.sender p = none →
      (∀ i : Fin 16, (s.sources.table[i]).isSome = true) →
      exec (.offerTaken dt p) s = .next (State.offerTableFull c o p
        ((s.elapse dt).modPath p fun q => { q with inbox := { q.inbox with offers := rest } }))

/-- O30 (tier 2). OFFER_DEADLINE makes an overdue entry LOST, PURGE frees the row of one LOST for 64 intervals,
MUTE_DEADLINE mutes one. (R77, R79, R80). The model's own, in notes/assumptions: logs 3, 41, 45. -/
def Obligations.DeadlinesRetireAndMuteEntries : Prop :=
  ∀ (dt : Nat) (i : Fin 16) (s : State), s.inReset = false →
    let e := s.elapse dt
    let put := fun z : Option SourceEntry => { e with sources := { e.sources with table := e.sources.table.set i z } }
    (e.sources.table[i] = none → exec (.offerDeadline dt i) s = .next e ∧ exec (.purge dt i) s = .next e ∧
      exec (.muteDeadline dt i) s = .next e) ∧
    ∀ x : SourceEntry, e.sources.table[i] = some x →
      let lost := State.modPath (put (some { x with state := .lost, count := 0, sinceLost := 0 })) x.path fun q =>
        { q with sources := { q.sources with losses := bump q.sources.losses } }
      exec (.offerDeadline dt i) s = .next (
        if x.state ≠ .lost ∧ s.sources.lossLimit * expSeconds x.offerExp ≤ x.sinceOffer then
          (if s.sources.selected = some i then lost.raise .sourceLost else lost).runSelection
        else e) ∧
      exec (.purge dt i) s = .next (
        if x.state = .lost ∧ 64 * expSeconds x.offerExp ≤ x.sinceLost then
          State.runSelection (State.modPath (put none) x.path fun q => { q with
            sources := { q.sources with purges := bump q.sources.purges }
            measure := { q.measure with record := q.measure.record.filter (·.target != x.sender) } })
        else e) ∧
      (x.sinceBeacon = none → exec (.muteDeadline dt i) s = .next e) ∧
      ∀ u, x.sinceBeacon = some u →
        exec (.muteDeadline dt i) s = .next (
          if 4 * expSeconds (x.beaconExp.getD 0) ≤ u then
            State.runSelection (State.modPath (put (some { x with mute := true, sinceBeacon := none })) x.path fun q =>
              { q with sources := { q.sources with muteEntries := bump q.sources.muteEntries } })
          else e)

/-- O31 (tier 2). BEACON_TAKEN: stale, unknown and bad Beacons are counted; a paired one is held (log 43); a single
one completes its entry (log 45). (R80, R86, R99, R101, R106). The model's own, in notes/assumptions: logs 8, 43,
44, 45. -/
def Obligations.BeaconCompletesOrWaitsForItsDetail : Prop :=
  ∀ (dt : Nat) (p : Path) (s : State), s.inReset = false →
    let e := s.elapse dt
    ((s.path p).inbox.beacons = [] → exec (.beaconTaken dt p) s = .next e) ∧
    ∀ (c : ScxCopy) (rest : List ScxCopy) (o : MessageTime), (s.path p).inbox.beacons = c :: rest →
      c.msg.body = .beacon o →
      let put := fun (i : Fin 16) (z : SourceEntry) =>
        { e with sources := { e.sources with table := e.sources.table.set i (some z) } }
      let after := fun (f : MeasureCounters → MeasureCounters) (t : State) => t.modPath p fun q => { q with
        inbox := { q.inbox with beacons := rest }
        measure := { q.measure with count := f q.measure.count } }
      (c.stamp.stepSum ≠ s.correction.stepSum →
        exec (.beaconTaken dt p) s = .next (after (fun k => { k with stale := bump k.stale }) e)) ∧
      (c.stamp.stepSum = s.correction.stepSum → s.sources.findKey c.msg.sender p = none →
        exec (.beaconTaken dt p) s = .next (after (fun k => { k with withoutEntry := bump k.withoutEntry }) e)) ∧
      ∀ (i : Fin 16) (x : SourceEntry), c.stamp.stepSum = s.correction.stepSum →
        s.sources.findKey c.msg.sender p = some i → e.sources.table[i] = some x →
        (c.msg.paired = true → exec (.beaconTaken dt p) s = .next (after
          (fun k => if x.pending.isSome then { k with abandoned := bump k.abandoned } else k)
          (
            let b : PendingBeacon := ⟨c.msg.domain, c.msg.sequence, c.stamp.time, c.msg.correction, c.msg.exponent⟩
            put i { x with pending := some b }))) ∧
        (c.msg.paired = false → 999999999 < o.ns →
          exec (.beaconTaken dt p) s = .next (after (fun k => { k with badOrigins := bump k.badOrigins }) e)) ∧
        (c.msg.paired = false → o.ns ≤ 999999999 → s.sources.selected ≠ some i →
          let done := after (fun k => { k with completed := bump k.completed }) (put i { x with
            leg := some (c.stamp.time - o.units - c.msg.correction)
            beaconExp := some (max (-7) (min 1 c.msg.exponent))
            lastBeacon := some c.stamp.time
            sinceBeacon := some 0
            mute := false })
          exec (.beaconTaken dt p) s = .next (if x.mute then done.runSelection else done))

/-- O32 (tier 2). DETAIL_TAKEN completes the pending Beacon of its domain (log 44) and sequence with both corrections
(log 45), others are counted. (R57, R80, R86, R100, R101, R106). The model's own, in notes/assumptions: logs 8, 43,
44, 45. -/
def Obligations.DetailCompletesItsPairedBeacon : Prop :=
  ∀ (dt : Nat) (p : Path) (s : State), s.inReset = false →
    let e := s.elapse dt
    ((s.path p).inbox.details = [] → exec (.detailTaken dt p) s = .next e) ∧
    ∀ (c : ScxCopy) (rest : List ScxCopy) (o : MessageTime), (s.path p).inbox.details = c :: rest →
      c.msg.body = .detail o →
      let put := fun (i : Fin 16) (z : SourceEntry) =>
        { e with sources := { e.sources with table := e.sources.table.set i (some z) } }
      let after := fun (f : MeasureCounters → MeasureCounters) (t : State) => t.modPath p fun q => { q with
        inbox := { q.inbox with details := rest }
        measure := { q.measure with count := f q.measure.count } }
      (c.stamp.stepSum ≠ s.correction.stepSum →
        exec (.detailTaken dt p) s = .next (after (fun k => { k with stale := bump k.stale }) e)) ∧
      (c.stamp.stepSum = s.correction.stepSum → s.sources.findKey c.msg.sender p = none →
        exec (.detailTaken dt p) s = .next (after (fun k => { k with withoutEntry := bump k.withoutEntry }) e)) ∧
      ∀ (i : Fin 16) (x : SourceEntry), c.stamp.stepSum = s.correction.stepSum →
        s.sources.findKey c.msg.sender p = some i → e.sources.table[i] = some x →
        (x.pending = none → exec (.detailTaken dt p) s =
          .next (after (fun k => { k with detailsIgnored := bump k.detailsIgnored }) e)) ∧
        ∀ b : PendingBeacon, x.pending = some b →
          (b.sequence ≠ c.msg.sequence ∨ b.domain ≠ c.msg.domain → exec (.detailTaken dt p) s =
            .next (after (fun k => { k with detailsIgnored := bump k.detailsIgnored }) e)) ∧
          (b.sequence = c.msg.sequence → b.domain = c.msg.domain → 999999999 < o.ns → exec (.detailTaken dt p) s =
            .next (after (fun k => { k with badOrigins := bump k.badOrigins })
              (put i { x with pending := none }))) ∧
          (b.sequence = c.msg.sequence → b.domain = c.msg.domain → o.ns ≤ 999999999 → s.sources.selected ≠ some i →
            let done := after (fun k => { k with completed := bump k.completed }) (put i { x with
              pending := none
              leg := some (b.arrival - o.units - (b.correction + c.msg.correction))
              beaconExp := some (max (-7) (min 1 b.exponent))
              lastBeacon := some c.stamp.time
              sinceBeacon := some 0
              mute := false })
            exec (.detailTaken dt p) s = .next (if x.mute then done.runSelection else done))

/-- O33 (tier 2). A completed Beacon of the selected entry, single or by its Detail, gives the servo floor((f - D) /
65,536), or is withheld. (R101, R103, R104). The model's own, in notes/assumptions: logs 8, 44, 45. -/
def Obligations.SelectedBeaconGivesTheServoAnOffset : Prop :=
  ∀ (dt : Nat) (p : Path) (s : State), s.inReset = false →
    let e := s.elapse dt
    ∀ (c : ScxCopy) (rest : List ScxCopy) (o : MessageTime) (i : Fin 16) (x : SourceEntry),
      c.stamp.stepSum = s.correction.stepSum → s.sources.findKey c.msg.sender p = some i → e.sources.table[i] = some x →
      o.ns ≤ 999999999 → s.sources.selected = some i → x.mute = false →
      let completed := fun (f exponent : Int) (pending : Option PendingBeacon) => ({ x with
        pending := pending
        leg := some f
        beaconExp := some (max (-7) (min 1 exponent))
        lastBeacon := some c.stamp.time
        sinceBeacon := some 0 } : SourceEntry)
      let after := fun (y : SourceEntry) (inbox : Inbox → Inbox) (k : MeasureCounters → MeasureCounters) => State.modPath
        { e with sources := { e.sources with table := e.sources.table.set i (some y) } } p fun q => { q with
            inbox := inbox q.inbox
            measure := { q.measure with count := k q.measure.count } }
      let given := fun (command : Instr) (f : Int) (y : SourceEntry) (inbox : Inbox → Inbox) =>
        (x.window = [] → exec command s =
          .next (after y inbox fun k => { k with completed := bump k.completed, withheld := bump k.withheld })) ∧
        (x.window ≠ [] → exec command s = .next (State.offsetArrival
          (max (-1000000000) (min 1000000000 ((f - x.window.sum / x.window.length) / 65536)))
          (after y inbox fun k => { k with completed := bump k.completed, produced := bump k.produced })))
      ((s.path p).inbox.beacons = c :: rest → c.msg.body = .beacon o → c.msg.paired = false →
        let f := c.stamp.time - o.units - c.msg.correction
        given (.beaconTaken dt p) f (completed f c.msg.exponent x.pending) fun b => { b with beacons := rest }) ∧
      ∀ b : PendingBeacon, (s.path p).inbox.details = c :: rest → c.msg.body = .detail o → x.pending = some b →
        b.sequence = c.msg.sequence → b.domain = c.msg.domain →
        let f := b.arrival - o.units - (b.correction + c.msg.correction)
        given (.detailTaken dt p) f (completed f b.exponent none) fun b => { b with details := rest }

/-- O34 (tier 2). REPLY_TAKEN: a matching Reply clears the record and makes the sample floor((f + r) / 2); any other
is stray. (R98, R102, R103). The model's own, in notes/assumptions: log 8. -/
def Obligations.ReplyMakesADelaySample : Prop :=
  ∀ (dt : Nat) (p : Path) (s : State), s.inReset = false →
    let e := s.elapse dt
    ((s.path p).inbox.replies = [] → exec (.replyTaken dt p) s = .next e) ∧
    ∀ (c : ScxCopy) (rest : List ScxCopy) (q0 : MessageTime) (who : Ident) (sq : Nat),
      (s.path p).inbox.replies = c :: rest → c.msg.body = .reply q0 who sq →
      let after := fun (clear : Bool) (f : MeasureCounters → MeasureCounters) (t : State) => t.modPath p fun q => { q with
        inbox := { q.inbox with replies := rest }
        measure := { q.measure with
          record := if clear then none else q.measure.record, count := f q.measure.count } }
      (((s.path p).measure.record = none ∨ ∃ r : ProbeRecord, (s.path p).measure.record = some r ∧
          (r.departure = none ∨ r.sequence ≠ sq ∨ r.target ≠ c.msg.sender)) →
        exec (.replyTaken dt p) s = .next (after false (fun k => { k with strayReplies := bump k.strayReplies }) e)) ∧
      ∀ d : Int, (s.path p).measure.record = some ⟨c.msg.sender, sq, some d⟩ →
        (999999999 < q0.ns →
          exec (.replyTaken dt p) s = .next (after true (fun k => { k with unusable := bump k.unusable }) e)) ∧
        (q0.ns ≤ 999999999 → ((s.sources.findKey c.msg.sender p).bind fun i => (s.sources.table[i]).bind (·.leg)) = none →
          exec (.replyTaken dt p) s = .next (after true (fun k => { k with noSample := bump k.noSample }) e)) ∧
        ∀ (i : Fin 16) (x : SourceEntry) (f : Int), q0.ns ≤ 999999999 → s.sources.findKey c.msg.sender p = some i →
          e.sources.table[i] = some x → x.leg = some f →
          let sample := (f + (q0.units - d - c.msg.correction)) / 2
          let w := (s.path p).measure.windowLength
          let put := fun z : SourceEntry => { e with sources := { e.sources with table := e.sources.table.set i (some z) } }
          let add := fun v : Int => put { x with window := (x.window ++ [v]).drop (x.window.length + 1 - w) }
          exec (.replyTaken dt p) s = .next (if 0 ≤ sample then
              after true (fun k => { k with samples := bump k.samples }) (add sample)
            else State.raise .delayAnomaly (after true
              (fun k => { k with samples := bump k.samples, anomalies := bump k.anomalies }) (add 0)))

/-- O35 (tier 2). PROBE_DUE: a waiting Probe skips, a sent one is lost, and a Probe toward the lead is queued with
its record or skipped. (R45, R49, R58, R95, R96, R183, R184, R185). The model's own, in notes/assumptions: log 3. -/
def Obligations.ProbeFallsDue : Prop :=
  (∀ (dt : Nat) (p : Path) (s : State), s.inReset = false →
    let e := s.elapse dt
    let m := (e.path p).measure
    let count := fun (f : MeasureCounters → MeasureCounters) (q : PathState) => { q with measure := { q.measure with
      count := f q.measure.count } }
    let d := e.modPath p fun q => { q with measure := { q.measure with timer := m.timer - expSeconds m.exponent } }
    (m.timer < expSeconds m.exponent → exec (.probeDue dt p) s = .next e) ∧
    (expSeconds m.exponent ≤ m.timer →
      (∀ r, m.record = some r → r.departure = none → exec (.probeDue dt p) s =
        .next (d.modPath p (count fun k => { k with probesSkipped := bump k.probesSkipped }))) ∧
      ((∀ r, m.record = some r → r.departure.isSome = true) →
        let t := if m.record.isSome then
            State.raise .probeLost (d.modPath p fun q =>
              let k := count (fun k => { k with probesLost := bump k.probesLost }) q
              { k with measure := { k.measure with record := none } })
          else d
        (m.lead = none → exec (.probeDue dt p) s = .next t) ∧
        ∀ lead : Ident, m.lead = some lead →
          (s.sources.findKey lead p = none → exec (.probeDue dt p) s = .next t) ∧
          ∀ (i : Fin 16) (x : SourceEntry), s.sources.findKey lead p = some i → e.sources.table[i] = some x →
            ((t.path p).net.up = false ∨ (t.path p).queues.time.isSome = true → exec (.probeDue dt p) s =
              .next (t.modPath p (count fun k => { k with probesSkipped := bump k.probesSkipped }))) ∧
            ((t.path p).net.up = true → (t.path p).queues.time = none → exec (.probeDue dt p) s =
              .next (t.modPath p fun q =>
                let k := count (fun k => { k with probesQueued := bump k.probesQueued }) q
                let frame := probeFrame x.station s.ctl.station (identityOf s.ctl.station p) s.classifier.listenDomain m.exponent
                  m.nextSequence e.servo.time
                let queued : PathState := { k with
                  queues := { k.queues with time := some ⟨frame, m.nextSequence⟩ }
                  measure := { k.measure with
                    record := some ⟨lead, m.nextSequence, none⟩
                    nextSequence := (m.nextSequence + 1) % 65536 } }
                if q.net.sending = none ∧ q.arb.timeClass ≠ .masked then
                  queued.decision ⟨e.now, e.correction.stepSum⟩
                else queued))))) ∧
    (∀ (q : PathState) (k : QueuedProbe) (i : Instant), q.queues.time = some k → q.net.sending = none →
      q.arb.timeClass ≠ .masked → (q.decision i).net.sending.isSome = true ∧ (q.decision i).queues = q.queues) ∧
    ∀ (dst src : Station) (p : Path) (domain sequence : Nat) (x : Int) (now : TimeValue), domain < 128 → -7 ≤ x → x ≤ 4 →
      sequence < 65536 → TimeValue.normal now = true →
      probeFrame dst src (identityOf src p) domain x sequence now = builtFrame (
        bigEndian 6 dst.toNat ++ bigEndian 6 src.toNat ++ ([0x9C, 0x41] : List Byte) ++
        ([0x14, BitVec.ofNat 8 domain, 0, BitVec.ofInt 8 x, 0, 40] : List Byte) ++ bigEndian 2 sequence ++ List.replicate 8 (0 : Byte) ++
        bigEndian 6 src.toNat ++ ([0, match p with | .a => 1 | .b => 2] : List Byte) ++ List.replicate 4 (0 : Byte) ++
        bigEndian 6 now.sec ++ bigEndian 4 now.ns ++ ([0, 0] : List Byte))

/-- O36 (tier 2). GENERATOR_EDGE emits the due edge to every line and to the label unit, records it and advances the
generator exactly. (R117, R118, R132, R139). The model's own, in notes/assumptions: log 3. -/
def Obligations.GeneratorEdgeIsEmittedAndLabelled : Prop :=
  (∀ (dt : Nat) (g : Fin 16) (s : State), s.inReset = false →
      let e := s.elapse dt
      let gen := e.gens[g]
      (gen.nextEdge = none → exec (.generatorEdge dt g) s = .next e) ∧
      ∀ (k t : Int) (r : Nat), gen.nextEdge = some (k, t, r) →
        ((wholeNs e.servo.time : Int) < t → exec (.generatorEdge dt g) s = .next e) ∧
        (t ≤ wholeNs e.servo.time →
          let l := (gen.labelEdge k).1
          let carry := decide (gen.config.n ≤ r + gen.gapRemainder)
          let next : Generator := if k = 9223372036854775807 then
              { l with last := some ⟨k, t⟩, condition := .exhausted, instant := none, remainder := none }
            else { l with
              last := some ⟨k, t⟩
              next := some (k + 1)
              instant := some (t + gen.gap + if carry then 1 else 0)
              remainder := some (if carry then r + gen.gapRemainder - gen.config.n else r + gen.gapRemainder) }
          let b : State := { e with
            lines := { e.lines with outputs := e.lines.outputs.map (·.takeEdge e.servo.lockIndication g gen.gap k) }
            gens := e.gens.set g next }
          exec (.generatorEdge dt g) s = .next (if (gen.labelEdge k).2 then b.raise .tcWrap else b))) ∧
    ∀ (gen : Generator) (k : Int),
      (gen.label = none ∨ (∃ l : LabelState, gen.label = some l ∧ l.jamEdge = none) → gen.labelEdge k = (gen, false)) ∧
      ∀ (l : LabelState) (j : Int), gen.label = some l → l.jamEdge = some j →
        (l.nextJam = some k → gen.labelEdge k = ({ gen with
          jams := bump gen.jams
          label := some { l with
            jamEdge := some k
            nextJam := l.nextJamFrom gen.config k
            last := some ⟨k, 0, l.math.label 0⟩ } }, false)) ∧
        (l.nextJam ≠ some k →
          let f := ((k - j) % l.math.perDay).toNat
          let wrap := decide (f = 0 ∧ k ≠ j)
          gen.labelEdge k = ({ gen with
            wraps := if wrap then bump gen.wraps else gen.wraps
            label := some { l with last := some ⟨k, f, l.math.label f⟩ } }, wrap))

/-- O37 (tier 2). Edge k lies at phi + floor(k D 10^9 / N) exactly; equal exact instants coincide; advance, realign
start and first edge keep it. (R115, R116, R117, R120, R126). -/
def Obligations.EdgeInstantsAreExact : Prop :=
  (∀ (c : GenConfig) (k t u : Int), 1 ≤ c.n → 1 ≤ c.d →
      c.edgeAt k = c.phi + Int.fdiv (k * (c.d * 1000000000)) c.n ∧
      c.remainderAt k < c.n ∧
      (if c.n ≤ c.remainderAt k + c.gapRemainder then
        c.edgeAt (k + 1) = c.edgeAt k + c.gap + 1 ∧ c.remainderAt (k + 1) = c.remainderAt k + c.gapRemainder - c.n
      else c.edgeAt (k + 1) = c.edgeAt k + c.gap ∧ c.remainderAt (k + 1) = c.remainderAt k + c.gapRemainder) ∧
      t ≤ c.edgeAt (c.startIndex t) ∧ c.edgeAt (c.startIndex t - 1) ≤ t ∧
      ∀ i, c.firstAtOrAfter u = some i → u ≤ c.edgeAt i ∧ ∀ i', u ≤ c.edgeAt i' → i ≤ i') ∧
    ∀ (c c' : GenConfig) (k k' : Int), 1 ≤ c.n → 1 ≤ c'.n → k * c.d * c'.n = k' * c'.d * c.n →
      c.edgeAt k - c'.edgeAt k' = c.phi - c'.phi

/-- O38 (tier 2). NDF and DF labels of every frame count of the day, with their ranges, the dropped labels and the
day's last label. (R133, R134). -/
def Obligations.LabelsOfFrameCounts : Prop :=
  (∀ b f : Nat, 1 ≤ b → f < b * 86400 →
      let l := LabelMath.label ⟨b, 0, 0, 0, b * 86400⟩ f
      l.frames = f % b ∧ l.seconds = f / b % 60 ∧ l.minutes = f / (60 * b) % 60 ∧ l.hours = f / (3600 * b) ∧
      l.drop = false ∧ l.hours ≤ 23 ∧ l.frames ≤ b - 1 ∧
      ((l.hours * 60 + l.minutes) * 60 + l.seconds) * b + l.frames = f) ∧
    ∀ m : LabelMath, m = ⟨30, 2, 1798, 17982, 2589408⟩ ∨ m = ⟨60, 4, 3596, 35964, 5178816⟩ →
      (∀ f : Nat, f < m.perDay →
        let tens := f / m.t10
        let x := f % m.t10
        let g := f + (if x < m.drop then 9 * m.drop * tens else 9 * m.drop * tens + m.drop * ((x - m.drop) / m.t1))
        let l := m.label f
        l.frames = g % m.base ∧ l.seconds = g / m.base % 60 ∧ l.minutes = g / (60 * m.base) % 60 ∧
        l.hours = g / (3600 * m.base) ∧ l.drop = true ∧
        l.hours ≤ 23 ∧ l.minutes ≤ 59 ∧ l.seconds ≤ 59 ∧ l.frames ≤ m.base - 1 ∧
        (l.seconds = 0 → l.minutes % 10 ≠ 0 → m.drop ≤ l.frames)) ∧
      (∀ h n : Nat, h < 24 → n < 60 → n % 10 ≠ 0 → ∃ f, f < m.perDay ∧ m.label f = ⟨h, n, 0, m.drop, true⟩) ∧
      m.perDay - 1 + m.adjustment (m.perDay - 1) = m.base * 86400 - 1 ∧
      m.label (m.perDay - 1) = ⟨23, 59, 59, m.base - 1, true⟩

/-- O39 (tier 2). A capture's phase is measured to the nearest edge of the bound generator, the earlier one at equal
distances. (R154). -/
def Obligations.CapturePhaseIsToTheNearestEdge : Prop :=
  ∀ (s : State) (g : Fin 16), (s.gens[g]).condition ≠ .disabled →
    let c := (s.gens[g]).config
    let u : Int := s.servo.time.sec * 1000000000 + s.servo.time.ns
    let k : Int := Int.fdiv ((u - c.phi) * c.n) (c.d * 1000000000)
    let e1 := c.edgeAt k
    let e2 := c.edgeAt (k + 1)
    1 ≤ c.n → 1000 * c.n ≤ c.d * 1000000000 → indexMin ≤ k → k < indexMax →
    ∃ ph : Int, s.capturePhase (some g) = some ph ∧
      ph = (if u - e1 ≤ e2 - u then u - e1 else u - e2) ∧
      e1 ≤ u ∧ u ≤ e2 ∧ e1 < e2 ∧
      (u = e1 ∨ u = e2 → ph = 0) ∧
      (e2 - e1 = c.gap ∨ e2 - e1 = c.gap + 1) ∧
      -((e2 - e1 - 1) / 2) ≤ ph ∧ ph ≤ (e2 - e1) / 2 ∧
      ph.natAbs ≤ (c.d * 1000000000 + 2 * c.n - 1) / (2 * c.n) ∧
      ∀ t : State, (t.gens[g]).condition ≠ .disabled → (t.gens[g]).config = c →
        t.servo.time.sec = s.servo.time.sec → t.servo.time.ns = s.servo.time.ns →
        t.capturePhase (some g) = some ph

/-- O40 (tier 2). A selected edge starts a pulse, square half or one-shot by the line's mode; PULSE_END returns the
line to rest (log 29). (R144, R145, R146, R147, R148, R150, R151). The model's own, in notes/assumptions: logs 3,
29. -/
def Obligations.LinesTakeEdgesAndPulseEnds : Prop :=
  (∀ (lock : Bool) (g : Fin 16) (q : Nat) (k : Int) (l : OutputLine),
      (l.cadence ≠ g ∨ k % l.divisor ≠ l.phase ∨ (l.muted = true ∧ lock = false) ∨ l.mode = .idle ∨ l.mode = .static →
        l.takeEdge lock g q k = l) ∧
      (l.cadence = g → k % l.divisor = l.phase → l.muted = false ∨ lock = true →
        (l.mode = .pulse → l.takeEdge lock g q k = { l with
          state := .active
          before := none
          pulseEnd := some (max (l.pulseEnd.getD 0) (max 16 (min (q * l.divisor - 16) l.width) * 65536)) }) ∧
        (l.mode = .square → l.takeEdge lock g q k = { l with
          state := .active
          before := none
          pulseEnd := some (max (l.pulseEnd.getD 0) (q * l.divisor / 2 * 65536)) }) ∧
        (l.mode = .oneshot → l.oneShot = some .armed → l.pulseEnd = none → l.takeEdge lock g q k = { l with
          state := if l.state = .active then .inactive else .active
          pulseEnd := some (max 16 (min (q * l.divisor - 16) l.width) * 65536)
          oneShot := some .done
          mode := .idle
          before := some l.state }) ∧
        (l.mode = .oneshot → l.oneShot ≠ some .armed ∨ l.pulseEnd ≠ none → l.takeEdge lock g q k = l))) ∧
    ∀ (dt : Nat) (i : Fin 8) (s : State), s.inReset = false →
      let e := s.elapse dt
      let l := e.lines.outputs[i]
      exec (.pulseEnd dt i) s = .next (if l.pulseEnd = some 0 then
          let rest : Level := match l.mode, l.before with
            | .static, _ => l.level
            | .idle, some b => b
            | .oneshot, some b => b
            | _, _ => .inactive
          let ended : OutputLine := { l with pulseEnd := none, before := none, state := rest }
          { e with lines := { e.lines with outputs := e.lines.outputs.set i ended } }
        else e)

/-- O41 (tier 1). INPUT_TRANSITION records a selected edge, whatever the level before (logs 7, 47), in the FIFO of
32, or counts an overflow. (R126, R153, R155). The model's own, in notes/assumptions: logs 7, 47. -/
def Obligations.InputTransitionsAreCaptured : Prop :=
  (∀ s : State, s.capturePhase none = none ∧
    ∀ g : Fin 16,
      let c := (s.gens[g]).config
      let k : Int := Int.fdiv (((s.servo.time.sec * 1000000000 + s.servo.time.ns : Nat) - c.phi) * c.n) (c.d * 1000000000)
      ((s.capturePhase (some g)).isSome = true ↔
        (s.gens[g]).condition ≠ .disabled ∧ -9223372036854775808 ≤ k ∧ k + 1 ≤ 9223372036854775807)) ∧
    ∀ (dt : Nat) (i : Fin 4) (d : EdgeDir) (s : State), s.inReset = false →
    let e := s.elapse dt
    let row := e.lines.inputs[i]
    let b : State := { e with lines := { e.lines with inputs := e.lines.inputs.set i { row with high := d == .rising } } }
    let record : Capture := ⟨i, d, e.servo.time, e.servo.state, e.capturePhase row.bind⟩
    (row.select = .none ∨ (row.select = .rising ∧ d = .falling) ∨ (row.select = .falling ∧ d = .rising) →
      exec (.inputTransition dt i d) s = .next b) ∧
    (row.select = .both ∨ (row.select = .rising ∧ d = .rising) ∨ (row.select = .falling ∧ d = .falling) →
      (s.lines.fifo = [] → exec (.inputTransition dt i d) s =
        .next (State.raise .captureReady { b with lines := { b.lines with fifo := [record] } })) ∧
      (s.lines.fifo ≠ [] → s.lines.fifo.length < 32 → exec (.inputTransition dt i d) s =
        .next { b with lines := { b.lines with fifo := s.lines.fifo ++ [record] } }) ∧
      (32 ≤ s.lines.fifo.length → exec (.inputTransition dt i d) s =
        .next (State.raise .captureOverflow { b with lines := { b.lines with overflow := min (s.lines.overflow + 1) 255 } })))

/-- O42 (tier 2). A fresh unmasked flag makes, marks or holds one notice on every named path; HOLDOFF_END stops the
timer and makes a pending one. (R46, R49, R175, R176, R177, R178, R183, R185, R186). The model's own, in
notes/assumptions: logs 3, 26. -/
def Obligations.NoticesFollowFlagsAndTheHoldoff : Prop :=
  let made := fun (t : State) (dst : Station) =>
      let frame := noticeFrame t.noticeView t.ctl dst
      let add := fun (p : Path) (q : PathState) => if t.ctl.noticePath.names p then
        { q with queues := { q.queues with mgmt := q.queues.mgmt ++ [frame] } } else q
      ({ t with
        paths := ⟨add .a t.paths.a, add .b t.paths.b⟩
        ctl := { t.ctl with
          sequence := (t.ctl.sequence + 1) % 65536
          timer := if 0 < t.ctl.holdoff then some (t.ctl.holdoff * 65536000000) else none
          count := { t.ctl.count with notices := bump t.ctl.count.notices } } } : State)
    let roomy := fun t : State => ∀ p : Path, (t.ctl.noticePath = .both ∨ t.ctl.noticePath = match p with | .a => .a | .b => .b) →
      (t.path p).net.up = true ∧ (t.path p).net.sending.isSome = true ∧ (t.path p).queues.mgmt.length < 8
    (∀ (s : State) (v : Event),
    let set : State := { s with ctl := { s.ctl with flags := s.ctl.flags ||| v.set } }
    (s.ctl.isSet v = true → s.raise v = s) ∧
    (s.ctl.isSet v = false →
      (s.ctl.destination = none ∨ s.ctl.mask.getLsbD v.bit = true → s.raise v = set) ∧
      ∀ dst, s.ctl.destination = some dst → s.ctl.mask.getLsbD v.bit = false →
        (s.ctl.timer.isSome = true → s.raise v = { set with ctl := { set.ctl with pendingMark := true } }) ∧
        (s.ctl.timer = none → s.ctl.hold = true → s.raise v = { set with ctl := { set.ctl with heldNotice := true } }) ∧
        (s.ctl.timer = none → s.ctl.hold = false → s.raise v = set.noticeMade dst ∧
          (roomy s → s.raise v = made set dst)))) ∧
    (∀ (dt : Nat) (s : State), s.inReset = false →
      let e := s.elapse dt
      let ended : State := { e with ctl := { e.ctl with timer := none, pendingMark := false } }
      (e.ctl.timer ≠ some 0 → exec (.holdoffEnd dt) s = .next e) ∧
      (e.ctl.timer = some 0 →
        (s.ctl.pendingMark = false ∨ s.ctl.destination = none ∨ s.ctl.flags &&& ~~~s.ctl.mask = 0 →
          exec (.holdoffEnd dt) s = .next ended) ∧
        ∀ dst, s.ctl.pendingMark = true → s.ctl.destination = some dst → s.ctl.flags &&& ~~~s.ctl.mask ≠ 0 →
          (s.ctl.hold = true →
            exec (.holdoffEnd dt) s = .next { ended with ctl := { ended.ctl with heldNotice := true } }) ∧
          (s.ctl.hold = false → exec (.holdoffEnd dt) s = .next (ended.noticeMade dst) ∧
            (roomy s → exec (.holdoffEnd dt) s = .next (made ended dst))))) ∧
    ∀ (t : State) (dst : Station), t.ctl.sequence < 65536 →
      let priorities := ((List.range 24).filter fun i => t.ctl.flags.getLsbD i).map fun i => (BitVec.ofNat 8 (i + 1) : Byte)
      let chosen := t.sources.selected.bind fun i => t.sources.table[i]
      noticeFrame t.noticeView t.ctl dst = builtFrame (
        bigEndian 6 dst.toNat ++ bigEndian 6 t.ctl.station.toNat ++ ([0x9C, 0x42] : List Byte) ++
        ([2, 0, 0, 0] : List Byte) ++ bigEndian 2 (24 + priorities.length) ++ ([0, 0] : List Byte) ++ bigEndian 2 t.ctl.sequence ++
        ([match t.servo.state with | .freerun => 0 | .acquire => 1 | .locked => 2 | .holdover => 3] : List Byte) ++
        ([BitVec.ofNat 8 priorities.length, if chosen.isSome then 1 else 0, 0, 0, 0] : List Byte) ++
        (match chosen with | some x => bigEndian 8 x.sender.toNat | none => List.replicate 8 0) ++ priorities)

/-- O43 (tier 2). MEDIA_DATAGRAM_TAKEN measures the stamp against network time; SILENCE_TIMER_EXPIRY makes an overdue
row SILENT. (R161, R162, R163, R164, R165). The model's own, in notes/assumptions: logs 3, 8, 9. -/
def Obligations.MediaDatagramsAreMeasured : Prop :=
  ∀ (dt : Nat) (s : State), s.inReset = false →
    let e := s.elapse dt
    (∀ p : Port,
      ((s.path p.path).inbox.media p.isNet = [] → exec (.mediaDatagramTaken dt p) s = .next e) ∧
      ∀ (d : MediaCopy) (rest : List MediaCopy), (s.path p.path).inbox.media p.isNet = d :: rest →
        let took := e.modPath p.path fun q => { q with inbox := q.inbox.setMedia p.isNet rest }
        (s.flow.matching p d = none → exec (.mediaDatagramTaken dt p) s = .next took) ∧
        ∀ i : Fin 64, s.flow.matching p d = some i →
          let row := e.flow.rows[i]
          let full := row.config.silence * 65536000000
          let put := fun r : FlowRow => e.flow.rows.set i r
          (d.payload.length < row.config.position + 4 → exec (.mediaDatagramTaken dt p) s = .next { took with
            flow := { e.flow with
              rows := put { row with stats := { row.stats with timer := row.stats.timer.map fun _ => full } }
              shorts := bump e.flow.shorts } }) ∧
          (row.config.position + 4 ≤ d.payload.length →
            let x : Int := (d.stamp.time / 65536 * row.config.rate / 1000000000 + row.config.offset) % 4294967296
            let raw : Int := ((fieldAt d.payload row.config.position 4 : Int) - x) % 4294967296
            let delta : Int := if 2147483648 ≤ raw then raw - 4294967296 else raw
            let breach := decide (delta < row.config.lo ∨ row.config.hi < delta)
            let stats : FlowStats :=
              { state := .active
                packets := bump row.stats.packets
                offsets := some (match row.stats.offsets with
                  | none => ⟨delta, delta, delta⟩
                  | some o => ⟨delta, min o.min delta, max o.max delta⟩)
                outside := if breach then bump row.stats.outside else row.stats.outside
                breach := row.stats.breach || breach
                timer := if 0 < row.config.silence then some full else row.stats.timer }
            let b : State := { took with flow := { e.flow with
              rows := put { row with stats := stats }, measurements := bump e.flow.measurements } }
            exec (.mediaDatagramTaken dt p) s = .next (if breach then b.raise .flowBreach else b))) ∧
    ∀ i : Fin 64,
      let row := e.flow.rows[i]
      exec (.silenceTimerExpiry dt i) s = .next (if row.stats.timer = some 0 then
          let silent := { row with stats := { row.stats with state := .silent, timer := none } }
          State.raise .flowSilent { e with flow := { e.flow with
            rows := e.flow.rows.set i silent, silences := bump e.flow.silences } }
        else e)

/-- O44 (tier 2). CONTROL_FRAME_TAKEN checks sender and form, runs commands in order, offers the reply, makes a held
notice, resets, takes the next. (R156, R167, R169, R170, R171, R173, R178, R183, R185, R186). The model's own, in
notes/assumptions: logs 10, 14, 15, 16, 20, 26, 38. -/
def Obligations.ControlFramesAreCheckedRunAndAnswered : Prop :=
  (∀ (dt : Nat) (s : State), s.inReset = false →
    let e := s.elapse dt
    (s.ctl.executing = none → ∀ n, exec (.controlFrameTaken dt n) s = .next e) ∧
    ∀ x : Execution, s.ctl.executing = some x →
      let f := readFrame x.frame.bytes
      (x.begun = false → s.ctl.hold = false → s.ctl.softReset = false → s.ctl.heldNotice = false →
        let k : Control := { e.ctl with lastServed := x.frame.path }
        (∀ n, s.ctl.admits f.src = false → exec (.controlFrameTaken dt n) s = .next { e with
          ctl := Control.promote { k with count := { k.count with rejects := bump k.count.rejects } } }) ∧
        (∀ n, s.ctl.admits f.src = true → readRequest f.payload = none →
          ∃ t, exec (.controlFrameTaken dt n) s = .next t ∧ Raised { e with
            ctl := Control.promote { k with count := { k.count with malformed := bump k.count.malformed } } }
            Event.mgmtDrop.set t) ∧
        (∀ tag entry entries, s.ctl.admits f.src = true → readRequest f.payload = some (tag, entry :: entries) →
          exec (.controlFrameTaken dt 0) s = .next { e with ctl := { k with
            hold := true
            count := { k.count with executed := bump k.count.executed }
            executing := some { x with
              begun := true
              entries := (entry :: entries).take 32
              excess := (entry :: entries).length - 32 } } }) ∧
        (∀ tag entry entries n t, s.ctl.admits f.src = true → readRequest f.payload = some (tag, entry :: entries) →
          s.servo.Sound → exec (.controlFrameTaken dt 0) s = .next t →
          exec (.controlFrameTaken dt (n + 1)) s = exec (.controlFrameTaken 0 (n + 1)) t)) ∧
      (x.begun = true →
        (∀ c1 rest, x.entries = c1 :: rest →
          let kept := fun c : Entry => if c.code = 14 ∧ c.args.length = 4 then 10 else 6
          let d := e.runEntry (1500 - 8 - x.answers.flatten.length - 6 - (rest.map kept).sum) c1
          (x.answers.flatten.length + ((c1 :: rest).map kept).sum ≤ 1492 →
            x.answers.flatten.length + (d.2.bytes c1.code).length + (rest.map kept).sum ≤ 1492) ∧
          exec (.controlFrameTaken dt 1) s = .next { d.1 with ctl := { d.1.ctl with
            executing := some { x with entries := rest, answers := x.answers ++ [d.2.bytes c1.code] }
            lastResult := some d.2 } }) ∧
        (∀ n t, x.entries ≠ [] → s.servo.Sound → exec (.controlFrameTaken dt 1) s = .next t →
          exec (.controlFrameTaken dt (n + 2)) s = exec (.controlFrameTaken 0 (n + 1)) t) ∧
        (∀ n, x.entries = [] → s.ctl.softReset = false → s.ctl.heldNotice = false →
          (s.path x.frame.path).net.up = true → (s.path x.frame.path).net.sending.isSome = true →
          (s.path x.frame.path).queues.mgmt.length < 8 →
          exec (.controlFrameTaken dt n) s = .next (State.modPath { e with ctl := Control.promote { e.ctl with
              hold := false
              count := { e.ctl.count with notRun := bumpBy x.excess e.ctl.count.notRun } } } x.frame.path fun q =>
            { q with queues := { q.queues with mgmt := q.queues.mgmt ++ [replyFrame s.ctl.station x] } })) ∧
        (x.entries = [] → x.answers.flatten.length ≤ 1492 → (replyFrame s.ctl.station x).length ≤ 14 + 4 + 1500 + 4) ∧
        (∀ n, x.entries = [] →
          let counted : State := { e with ctl := { e.ctl with
            count := { e.ctl.count with notRun := bumpBy x.excess e.ctl.count.notRun } } }
          let sent := counted.modPath x.frame.path
            (PathState.mgmtOffered ⟨e.now, e.correction.stepSum⟩ (replyFrame s.ctl.station x))
          let offered := if (e.path x.frame.path).mgmtFull then sent.raise .mgmtDrop else sent
          let free : State := { offered with ctl := { offered.ctl with hold := false, heldNotice := false } }
          let ended := match offered.ctl.heldNotice, offered.ctl.destination with
            | true, some dst => free.noticeMade dst
            | _, _ => free
          (s.ctl.softReset = false →
            exec (.controlFrameTaken dt n) s = .next { ended with ctl := ended.ctl.promote }) ∧
          (s.ctl.softReset = true → ∃ v, exec .softReset ended = .next v ∧
            exec (.controlFrameTaken dt n) s =
              .next { v with ctl := Control.promote { v.ctl with lastResult := ended.ctl.lastResult } })))) ∧
    (∀ s : State, s.inReset = false → s.ctl.hold = true → s.RunsEntries) ∧
    (∀ tag entries, ∀ payload : List Byte, readRequest payload = some (tag, entries) →
      ((entries.take 32).map fun c : Entry => if c.code = 14 ∧ c.args.length = 4 then 10 else 6).sum ≤ 1492) ∧
    (∀ c : Control,
      let took := fun (w : Waiting) (p : Path) => { c with
        executing := some ⟨w.frame, false, [], [], 0⟩, waiting := c.waiting.set p none }
      (c.waiting.a = none → c.waiting.b = none → c.promote = { c with executing := none }) ∧
      (∀ x, c.waiting.a = some x → c.waiting.b = none → c.promote = took x .a) ∧
      (∀ y, c.waiting.a = none → c.waiting.b = some y → c.promote = took y .b) ∧
      ∀ x y, c.waiting.a = some x → c.waiting.b = some y →
        (x.since < y.since → c.promote = took x .a) ∧
        (y.since < x.since → c.promote = took y .b) ∧
        (x.since = y.since → c.promote = match c.lastServed with | .a => took y .b | .b => took x .a)) ∧
    (∀ (payload : List Byte) (tag : Nat) (entries : List Entry),
      readRequest payload = some (tag, entries) ↔ RequestOf payload tag entries) ∧
    (∀ (c : Control) (src : Station), c.admits src = true ↔
      (∀ i : Fin 4, c.managers[i] = none) ∨ ∃ i : Fin 4, c.managers[i] = some src) ∧
    (∀ f : List Byte, 64 ≤ f.length →
      let tagged := (f.drop 12).take 2 = [0x81, 0x00] ∨ (f.drop 12).take 2 = [0x88, 0xA8]
      bigEndian 6 (readFrame f).src.toNat = (f.drop 6).take 6 ∧
      (readFrame f).payload = (f.take (f.length - 4)).drop (if tagged then 18 else 14)) ∧
    (∀ (a : Answer) (code : Nat), code < 65536 → a.data.length ≤ 1494 → a.bytes code =
      bigEndian 2 (6 + a.data.length) ++ bigEndian 2 code ++ ([match a.result with
        | .ok => 0 | .noItem => 1 | .badValue => 2 | .readOnly => 3 | .state => 4 | .duplicate => 5 | .noRoom => 6
        | .unknownCommand => 7] : List Byte) ++ [0] ++ a.data) ∧
    ∀ (station : Station) (x : Execution),
      let f := x.frame.bytes
      let results := x.answers.flatten
      let tagged := (f.drop 12).take 2 = [0x81, 0x00] ∨ (f.drop 12).take 2 = [0x88, 0xA8]
      64 ≤ f.length → results.length ≤ 1492 → replyFrame station x = builtFrame (
        (f.drop 6).take 6 ++ bigEndian 6 station.toNat ++ (if tagged then (f.drop 12).take 4 else []) ++ [0x9C, 0x42] ++
        [1, if 0 < x.excess then 1 else 0] ++ (f.drop (if tagged then 20 else 16)).take 2 ++
        bigEndian 2 (8 + results.length) ++ [0, 0] ++ results)

/-- O45 (tier 2). READ_ITEM (two-valued bytes: log 13), READ_EVENTS, SET_CURSOR and READ_ROWS answer what the state
holds, changing at most the cursor. (R170, R171, R172, R173, R175, R183). The model's own, in notes/assumptions:
logs 11, 13, 18, 28, 30, 32, 33, 46, 53. -/
def Obligations.ReadsShowItemsRowsAndFlags : Prop :=
  ∀ s : State, s.Ready →
    (∀ n : BitVec 16, exec (.readItem n) s = .next (s.answered (match s.itemValue n.toNat with
      | none => ⟨.noItem, []⟩
      | some v => ⟨.ok, v⟩))) ∧
    s.itemValue 100 = some (putNat 6 s.servo.time.sec ++ putNat 4 s.servo.time.ns ++ putNat 2 s.servo.time.sub) ∧
    s.itemValue 103 = some (putInt 8 s.servo.trim) ∧
    s.itemValue 121 = some (putNat 8 (if s.servo.lockIndication then 0 else 1)) ∧
    s.itemValue 201 = some (putInt 8 (s.path s.ctl.select.readPath).net.egressTrim) ∧
    s.itemValue 204 = some (putNat 8 (if (s.path s.ctl.select.readPath).net.up then 0 else 1)) ∧
    s.itemValue 225 = some (putNat 8 (s.path s.ctl.select.readPath).eq.received) ∧
    s.itemValue 310 = some (putNat 8 (s.path s.ctl.select.readPath).down.frames.length) ∧
    s.itemValue 406 = some (putInt 8 s.correction.stepSum) ∧
    s.itemValue 505 = some (putInt 8 s.sources.house.utc) ∧
    s.itemValue 602 = some (putNat 8 (s.path s.ctl.select.readPath).measure.nextSequence) ∧
    s.itemValue 910 = some (putNat 8 s.flow.measurements) ∧
    s.itemValue 1009 = some (putNat 8 s.ctl.flags.toNat) ∧
    (∀ n ∈ [0, 99, 122, 129, 137, 208, 335, 407, 530, 608, 902, 1012, 1026], s.itemValue n = none) ∧
    exec .readEvents s = .next (s.answered ⟨.ok, beBytes 4 s.ctl.flags.toNat⟩) ∧
    (∀ (b : Byte) (row : BitVec 16), exec (.setCursor b row) s = .next (match readTable b with
      | none => s.answered ⟨.badValue, []⟩
      | some t => if row.toNat < t.rows then
          State.answered { s with ctl := { s.ctl with table := t, row := row.toNat } } ⟨.ok, []⟩
        else s.answered ⟨.badValue, []⟩)) ∧
    (∀ count : Byte, exec (.readRows count) s = .next (if s.ctl.row < s.ctl.table.rows then
        let n := min count.toNat (min (s.ctl.table.rows - s.ctl.row) (1482 / s.ctl.table.rowSize))
        State.answered { s with ctl := { s.ctl with row := s.ctl.row + n } }
          ⟨.ok, [BitVec.ofNat 8 n, 0, 0, 0] ++ (List.range n).flatMap fun i => s.rowBytes s.ctl.table (s.ctl.row + i)⟩
      else s.answered ⟨.badValue, []⟩)) ∧
    (
      let yes := fun b : Bool => if b then (0 : Byte) else 1
      let byte := fun n : Nat => (BitVec.ofNat 8 n : Byte)
      (∀ i : Fin 16,
        let g := s.gens[i]
        let on := decide (g.condition ≠ .disabled)
        let condition : Byte := match g.condition with | .disabled => 0 | .running => 1 | .exhausted => 2
        let cause : Byte := match g.cause with
          | .none => 0 | .reset => 1 | .write => 2 | .step => 3 | .setTime => 4 | .command => 5
        let shown : Option Label := match g.condition, g.next, g.instant, g.remainder, g.label with
          | .running, some k, some _, some _, some l => l.jamEdge.map fun j =>
              l.math.label (if l.nextJam = some k then 0 else ((k - j) % l.math.perDay).toNat)
          | _, _, _, _, _ => none
        let instant := fun t : Option Int => putUnits? (t.map (· * 65536))
        let label : Option Label → List Byte := fun l => match l with
          | none => [0xFF, 0xFF, 0xFF, 0xFF]
          | some l => [byte l.hours, byte l.minutes, byte l.seconds, byte l.frames]
        s.rowBytes .cadence i =
          [yes g.config.enabled, match g.config.labelMode with | .off => 0 | .ndf => 1 | .df => 2, 0, 0] ++
          putNat 4 g.config.n ++ putNat 2 g.config.d ++ [0, 0] ++ putInt 4 g.config.phi ++
          [condition, cause, 0, 0] ++
          (if on then putInt? 8 g.next ++ instant g.instant ++ putNat? 4 g.remainder ++ putNat 4 g.gap ++
              putNat 4 g.gapRemainder ++ putInt? 8 (g.last.map (·.index)) ++ instant (g.last.map (·.instant))
            else noneSigned 8 ++ List.replicate 24 0xFF ++ noneSigned 8 ++ List.replicate 12 0xFF) ++
          putNat 4 g.realigns ++
          (match g.label with
            | none => ([0xFF, 0xFF, 0, 0] : List Byte) ++ List.replicate 4 0xFF ++ noneSigned 8 ++ noneSigned 8 ++ noneSigned 2 ++ [0, 0] ++
                noneSigned 4 ++ List.replicate 4 0xFF ++ noneSigned 8 ++ List.replicate 12 0xFF
            | some l =>
              [byte l.math.base, byte ((if l.last.any (·.label.drop) then 1 else 0) + if shown.any (·.drop) then 2 else 0),
                0, 0] ++ putNat 4 l.math.perDay ++ putInt? 8 l.jamEdge ++ putInt? 8 l.nextJam ++ putInt 2 l.utc ++ [0, 0] ++
              putInt 4 l.zone ++ putNat 4 l.jam ++ putInt? 8 (l.last.map (·.index)) ++ putNat? 4 (l.last.map (·.count)) ++
              label (l.last.map (·.label)) ++ label shown) ++
          putNat 4 g.wraps ++ putNat 4 g.jams) ∧
      (∀ i : Fin 64,
        let c := (s.flow.rows[i]).config
        let t := (s.flow.rows[i]).stats
        s.rowBytes .flow i =
          [yes c.enabled, byte ((if c.paths.a then 1 else 0) + if c.paths.b then 2 else 0),
            byte ((if c.dirs.down then 1 else 0) + if c.dirs.up then 2 else 0), byte c.position] ++
          beBytes 4 c.group.toNat ++ beBytes 2 c.port.toNat ++ putNat 2 c.silence ++ putNat 4 c.rate ++ putInt 4 c.offset ++
          putInt 4 c.lo ++ putInt 4 c.hi ++
          [(match t.state with | .idle => 0 | .active => 1 | .silent => 2 : Byte), yes t.offsets.isSome, yes t.breach, 0] ++
          putNat 4 t.packets ++ putInt? 4 (t.offsets.map (·.last)) ++ putInt? 4 (t.offsets.map (·.min)) ++
          putInt? 4 (t.offsets.map (·.max)) ++ putNat 4 t.outside ++ putNat? 4 (t.timer.map (· / 65536000000))) ∧
      (∀ i : Fin 16,
        (s.sources.table[i] = none → s.rowBytes .source i = List.replicate 88 0) ∧
        ∀ x, s.sources.table[i] = some x →
          let bit := fun (b : Bool) (n : Nat) => if b then 2 ^ n else 0
          let estimate := if x.window = [] then none else some (x.window.sum / x.window.length)
          s.rowBytes .source i =
            [1, match x.path with | .a => 0 | .b => 1, match x.state with | .new => 0 | .qualified => 1 | .lost => 2,
              byte (bit x.mute 0 + bit x.barred 1 + bit (s.sources.selected == some i) 2 + bit x.offer.house.isSome 3 +
                bit estimate.isSome 4)] ++
            beBytes 8 x.sender.toNat ++ beBytes 6 x.station.toNat ++ putNat 1 x.offer.tier ++ putNat 1 x.offer.accuracy ++
            putNat 2 x.offer.stability ++ putNat 1 x.offer.steps ++
            [byte (bit x.offer.timeTraceable 0 + bit x.offer.freqTraceable 1 + bit x.offer.utcValid 2)] ++
            putInt 2 x.offer.utc ++ putInt 1 x.offerExp ++ putInt? 1 x.beaconExp ++ beBytes 8 x.offer.grand.toNat ++
            putInt? 4 (x.offer.house.map (·.zone)) ++ putNat? 4 (x.offer.house.map (·.jam)) ++ putNat 1 x.count ++
            putNat? 1 (x.ruleRow.map (·.val)) ++ putNat 1 x.rank ++ [0] ++ putUnits x.lastOffer ++ putUnits? x.lastBeacon ++
            putNat 4 ((if x.state = .lost then 64 * expSeconds x.offerExp - x.sinceLost
              else s.sources.lossLimit * expSeconds x.offerExp - x.sinceOffer) / 65536000000) ++
            putNat? 4 (x.sinceBeacon.map fun t => (4 * expSeconds (x.beaconExp.getD 0) - t) / 65536000000) ++
            putInt? 8 estimate) ∧
      (∀ i : Fin 8,
        s.rowBytes .rules i = match s.sources.rules[i] with
          | none => List.replicate 16 0
          | some r =>
            [1, byte ((if r.paths.a then 1 else 0) + if r.paths.b then 2 else 0),
              match r.action with | .prefer _ => 0 | .bar => 1, match r.action with | .prefer k => byte k | .bar => 0,
              if r.sender.isSome then 0 else 1, 0, 0, 0] ++ beBytes 8 (r.sender.getD 0).toNat) ∧
      (∀ i : Fin 4,
        s.rowBytes .managers i = match s.ctl.managers[i] with
          | none => List.replicate 8 0
          | some a => [1, 0] ++ beBytes 6 a.toNat) ∧
      (∀ i : Fin 32,
        s.rowBytes .residence i = match s.correction.rows[i] with
          | none => List.replicate 40 0
          | some x =>
            [1, match x.path with | .a => 0 | .b => 1, byte x.domain, 0] ++ putNat 2 x.sequence ++ [0, 0] ++
            beBytes 8 x.sender.toNat ++ putInt 8 x.residence ++
            (putNat 6 x.created.sec ++ putNat 4 x.created.ns ++ putNat 2 x.created.sub) ++ putNat 4 (x.age / 65536000)) ∧
      (∀ i : Fin 8,
        let l := s.lines.outputs[i]
        let level := fun v : Level => match v with | .active => (0 : Byte) | .inactive => 1
        s.rowBytes .lines i =
          [0, match l.mode with | .static => 0 | .idle => 1 | .pulse => 2 | .square => 3 | .oneshot => 4,
            byte l.cadence.val, if l.activeLow then 1 else 0] ++ putNat 2 l.divisor ++ putNat 2 l.phase ++
          putNat 4 l.width ++ [yes l.muted, level l.level, 0, 0, level l.state,
            match l.oneShot with | some .armed => 0 | some .done => 1 | none => 0xFF, 0, 0] ++
          putNat? 4 (l.pulseEnd.map (· / 65536))) ∧
      ∀ i : Fin 4,
        let l := s.lines.inputs[i]
        s.rowBytes .lines (i.val + 8) =
          [1, match l.select with | .none => 0 | .rising => 1 | .falling => 2 | .both => 3,
            match l.bind with | some g => byte g.val | none => 0xFF, 0, yes l.high] ++ List.replicate 19 0)

/-- O46 (tier 2). CAPTURE_READ and FLOW_READ_CLEAR give up what they return; CLEAR_EVENTS clears the named flags
alone. (R156, R167, R175, R183, R187). The model's own, in notes/assumptions: logs 16, 49. -/
def Obligations.ReadsThatTakeAndClears : Prop :=
  (∀ s : State, s.Ready →
    (∀ count : Byte,
      let n := min count.toNat (min s.lines.fifo.length 74)
      exec (.captureRead count) s = .next (State.answered
        { s with lines := { s.lines with fifo := s.lines.fifo.drop n, overflow := 0 } }
        ⟨.ok, [BitVec.ofNat 8 n, BitVec.ofNat 8 (s.lines.fifo.length - n), BitVec.ofNat 8 s.lines.overflow, 0] ++
          (s.lines.fifo.take n).flatMap Capture.bytes⟩)) ∧
    (∀ count : Byte, exec (.flowReadClear count) s = .next (
      if s.ctl.table = .flow ∧ s.ctl.row < 64 ∧ count.toNat ≤ 64 then
        let n := min count.toNat (min (64 - s.ctl.row) 26)
        let cleared := Vector.ofFn fun i : Fin 64 =>
          let r := s.flow.rows[i]
          if s.ctl.row ≤ i.val ∧ i.val < s.ctl.row + n then
            { r with stats := { r.stats with offsets := none, outside := 0, breach := false } }
          else r
        State.answered
          { s with flow := { s.flow with rows := cleared }, ctl := { s.ctl with row := s.ctl.row + n } }
          ⟨.ok, [BitVec.ofNat 8 n, 0, 0, 0] ++ (List.range n).flatMap fun i => s.rowBytes .flow (s.ctl.row + i)⟩
      else s.answered ⟨.badValue, []⟩)) ∧
    ∀ set : BitVec 32, exec (.clearEvents set) s = .next (if set.toNat < 16777216 then
        State.answered { s with ctl := { s.ctl with flags := s.ctl.flags &&& ~~~(set.setWidth 24) } } ⟨.ok, []⟩
      else s.answered ⟨.badValue, []⟩)) ∧
    ∀ c : Capture, TimeValue.normal c.time = true → (∀ x ∈ c.phase, -2147483648 ≤ x ∧ x < 2147483648) →
      c.bytes = ([BitVec.ofNat 8 c.line.val, match c.edge with | .rising => 0 | .falling => 1,
          match c.state with | .freerun => 0 | .acquire => 1 | .locked => 2 | .holdover => 3,
          if c.phase.isSome then 1 else 0] : List Byte) ++
        bigEndian 6 c.time.sec ++ bigEndian 4 c.time.ns ++ bigEndian 2 c.time.sub ++
        (match c.phase with | none => [0, 0, 0, 0] | some x => bigEndian 4 (x % 4294967296).toNat)

/-- O47 (tier 2). WRITE_ITEM and the writes of trim limit, Probe exponent, delay window and flow enable store, clamp
(log 35) or refuse. (R20, R27, R90, R95, R103, R108, R160, R172, R176). The model's own, in notes/assumptions: logs
16, 35, 38, 52. -/
def Obligations.ItemWritesStoreClampOrRefuse : Prop :=
  ∀ (s : State) (v : BitVec 64), s.Ready →
    let on := fun (f : PathState → PathState) =>
      (⟨if s.ctl.select = .b then s.paths.a else f s.paths.a, if s.ctl.select = .a then s.paths.b else f s.paths.b⟩ :
        PerPath PathState)
    (∀ n : BitVec 16, s.itemValue n.toNat = none → exec (.writeItem n v) s = .next (s.answered ⟨.noItem, []⟩)) ∧
    (∀ n : BitVec 16, (s.itemValue n.toNat).isSome = true → isWritable n.toNat = false →
      exec (.writeItem n v) s = .next (s.answered ⟨.readOnly, []⟩)) ∧
    (∀ x ∈ [((112 : BitVec 16), { s.servo with stepThreshold := max 1000 (min 1000000000 v.toNat) }),
        (114, { s.servo with outlierThreshold := max 100 (min 1000000 v.toNat) }),
        (115, { s.servo with outlierLimit := max 1 (min 15 v.toNat) }),
        (118, { s.servo with holdoverBudget := max 1 (min 65535 v.toNat) })],
      exec (.writeItem x.1 v) s = .next (State.answered { s with servo := x.2 } ⟨.ok, []⟩)) ∧
    (∀ x ∈ [((110 : BitVec 16), 5, { s.servo with startStage := v.toNat }), (111, 5, { s.servo with finalStage := v.toNat }),
        (113, 1, { s.servo with stepGuard := decide (v.toNat = 1) }), (117, 3, { s.servo with quietCode := v.toNat })],
      exec (.writeItem x.1 v) s = .next (if v.toNat ≤ x.2.1 then State.answered { s with servo := x.2.2 } ⟨.ok, []⟩
        else s.answered ⟨.badValue, []⟩)) ∧
    (∀ (n : BitVec 16) (f : PathState → PathState),
      (n = 200 ∧ f = fun q => { q with net := { q.net with ingressTrim := v.toInt } }) ∨
        (n = 201 ∧ f = fun q => { q with net := { q.net with egressTrim := v.toInt } }) ∨
        (n = 202 ∧ f = fun q => { q with eq := { q.eq with ingressTrim := v.toInt } }) ∨
        (n = 203 ∧ f = fun q => { q with eq := { q.eq with egressTrim := v.toInt } }) →
      exec (.writeItem n v) s = .next (if -32767 ≤ v.toInt ∧ v.toInt ≤ 32767 then
          State.answered { s with paths := on f } ⟨.ok, []⟩
        else s.answered ⟨.badValue, []⟩)) ∧
    (∀ x ∈ [((210 : BitVec 16), 1, { s.classifier with foreignBlock := decide (v.toNat = 1) }),
        (400, 127, { s.classifier with windowLow := v.toNat }), (401, 127, { s.classifier with windowHigh := v.toNat }),
        (402, 127, { s.classifier with opaqueLow := v.toNat }), (403, 127, { s.classifier with opaqueHigh := v.toNat }),
        (500, 127, { s.classifier with listenDomain := v.toNat })],
      exec (.writeItem x.1 v) s = .next (if v.toNat ≤ x.2.1 then State.answered { s with classifier := x.2.2 } ⟨.ok, []⟩
        else s.answered ⟨.badValue, []⟩)) ∧
    exec (.writeItem 501 v) s = .next (State.answered
      { s with sources := { s.sources with qualCount := max 1 (min 8 v.toNat) } } ⟨.ok, []⟩) ∧
    exec (.writeItem 508 v) s = .next (if v.toNat ≤ 7 then
        State.answered { s with sources := { s.sources with house := { s.sources.house with
          pinUtc := v.getLsbD 0, pinZone := v.getLsbD 1, pinJam := v.getLsbD 2 } } } ⟨.ok, []⟩
      else s.answered ⟨.badValue, []⟩) ∧
    (∀ x ∈ [((116 : BitVec 16), Instr.writeTrimLimit v), (119, .writeLockIndicationMode v),
        (300, .writeArbiterClass .through v), (301, .writeArbiterClass .time v), (302, .writeArbiterClass .mgmt v),
        (404, .writeResidenceLifetime v), (502, .writeLossLimit v), (503, .writePreferredPath v), (504, .writeRevertive v),
        (505, .writeHouseItem .utcOffset v), (506, .writeHouseItem .zoneOffset v), (507, .writeHouseItem .jamTime v),
        (600, .writeProbeIntervalExponent v), (601, .writeDelayWindowLength v), (900, .writeFlowMonitorEnable v)],
      exec (.writeItem x.1 v) s = exec x.2 s) ∧
    (
      let select : PathSelect := if v.toNat = 0 then .a else if v.toNat = 1 then .b else .both
      ∀ x ∈ [((1004 : BitVec 16), { s.ctl with select := select }), (1006, { s.ctl with noticePath := select })],
        exec (.writeItem x.1 v) s = .next (if v.toNat ≤ 2 then State.answered { s with ctl := x.2 } ⟨.ok, []⟩
          else s.answered ⟨.badValue, []⟩)) ∧
    exec (.writeItem 1005 v) s = .next (if v = BitVec.allOnes 64 then
        State.answered { s with ctl := { s.ctl with destination := none, pendingMark := false, heldNotice := false } } ⟨.ok, []⟩
      else if v.toNat < 281474976710656 then
        State.answered { s with ctl := { s.ctl with destination := some (v.setWidth 48) } } ⟨.ok, []⟩
      else s.answered ⟨.badValue, []⟩) ∧
    exec (.writeItem 1007 v) s = .next (if v.toNat < 16777216 ∧ v.getLsbD 0 = false ∧ v.getLsbD 1 = false then
        State.answered { s with ctl := { s.ctl with mask := v.setWidth 24 } } ⟨.ok, []⟩
      else s.answered ⟨.badValue, []⟩) ∧
    exec (.writeItem 1008 v) s = .next (State.answered
      { s with ctl := { s.ctl with holdoff := min 10000 v.toNat } } ⟨.ok, []⟩) ∧
    (
      let l := max 1 (min 1600000 v.toNat)
      exec (.writeTrimLimit v) s = .next (State.answered { s with servo := { s.servo with
        trimLimit := l
        acc := max (-(l : Int)) (min l s.servo.acc)
        trim := max (-(l : Int)) (min l s.servo.trim) } } ⟨.ok, []⟩)) ∧
    exec (.writeProbeIntervalExponent v) s = .next (State.answered
      { s with paths := on fun q => { q with measure := { q.measure with
        exponent := max (-7) (min 4 v.toInt), timer := 0 } } } ⟨.ok, []⟩) ∧
    (
      let w := max 1 (min 8 v.toNat)
      let keep := fun x : SourceEntry => if s.ctl.select.names x.path then
        { x with window := x.window.drop (x.window.length - w) } else x
      exec (.writeDelayWindowLength v) s = .next (State.answered { s with
        paths := on fun q => { q with measure := { q.measure with windowLength := w } }
        sources := { s.sources with table := s.sources.table.map (·.map keep) } } ⟨.ok, []⟩)) ∧
    exec (.writeFlowMonitorEnable v) s = .next (if v.toNat ≤ 1 then
        let started := fun r : FlowRow =>
          if r.stats.state = .active ∧ 0 < r.config.silence then some (r.config.silence * 65536000000) else r.stats.timer
        let timed := fun r : FlowRow => { r with stats := { r.stats with
          timer := if v.toNat = 1 then started r else none } }
        State.answered
          { s with flow := { s.flow with enable := decide (v.toNat = 1), rows := s.flow.rows.map timed } } ⟨.ok, []⟩
      else s.answered ⟨.badValue, []⟩)

/-- O48 (tier 2). WRITE_ARBITER_CLASS and WRITE_HOUSE_ITEM store a legal value on the selected paths or part, and
refuse any other. (R48, R49, R90, R136, R172). -/
def Obligations.ClassAndHouseItemWrites : Prop :=
  ∀ (s : State) (v : BitVec 64), s.Ready →
    (∀ r : Requester,
      ((v.toNat > 2 ∨ (v.toNat = 2 ∧ r = .through)) → exec (.writeArbiterClass r v) s = .next (s.answered ⟨.badValue, []⟩)) ∧
      ∀ c : ArbClass, readClass v.toNat = some c → ¬ (c = .masked ∧ r = .through) →
        let set := fun q : PathState => { q with arb := match r with
          | .through => { q.arb with throughClass := c }
          | .time => { q.arb with timeClass := c }
          | .mgmt => { q.arb with mgmtClass := c } }
        let write := fun q : PathState =>
          if q.arb.classOf r = .masked ∧ c ≠ .masked ∧ 0 < q.waitingFrames r ∧ q.net.up = true ∧ q.net.sending = none then
            (set q).decision ⟨s.now, s.correction.stepSum⟩
          else set q
        exec (.writeArbiterClass r v) s = .next (State.answered { s with paths :=
          ⟨if s.ctl.select = .b then s.paths.a else write s.paths.a,
            if s.ctl.select = .a then s.paths.b else write s.paths.b⟩ } ⟨.ok, []⟩) ∧
        ∀ p : Path, s.ctl.select.names p = true → (s.path p).net.isIdle = true → (s.path p).arb.classOf r = .masked →
          0 < (s.path p).waitingFrames r → c ≠ .masked →
          ∃ t, exec (.writeArbiterClass r v) s = .next t ∧ (t.path p).net.sending.isSome = true) ∧
    (∀ i : HouseItem,
      (match i with
        | .utcOffset => v.toInt < -32768 ∨ 32767 < v.toInt
        | .zoneOffset => v.toInt < -50400 ∨ 50400 < v.toInt ∨ v.toInt % 900 ≠ 0
        | .jamTime => 86399 < v.toNat) →
      exec (.writeHouseItem i v) s = .next (s.answered ⟨.badValue, []⟩)) ∧
    (∀ (i : HouseItem) (h : HouseItems),
      (match i with
        | .utcOffset => h = { s.sources.house with utc := v.toInt } ∧ -32768 ≤ v.toInt ∧ v.toInt ≤ 32767
        | .zoneOffset => h = { s.sources.house with zone := v.toInt } ∧ -50400 ≤ v.toInt ∧ v.toInt ≤ 50400 ∧
            v.toInt % 900 = 0
        | .jamTime => h = { s.sources.house with jam := v.toNat } ∧ v.toNat ≤ 86399) →
      exec (.writeHouseItem i v) s = .next (State.answered { s with
        sources := { s.sources with house := h }
        gens := if h = s.sources.house then s.gens else s.gens.map (·.houseChanged h) } ⟨.ok, []⟩)) ∧
    ∀ (gen : Generator) (h : HouseItems),
      (gen.condition ≠ .running ∨ gen.label = none ∨ gen.next = none → gen.houseChanged h = gen) ∧
      ∀ (l : LabelState) (k : Int), gen.condition = .running → gen.label = some l → gen.next = some k →
        let c : Int := (h.jam + h.utc - h.zone) * 1000000000
        let jam : Int := Int.fdiv (gen.config.edgeAt (k - 1) - c) 86400000000000 * 86400000000000 + c + 86400000000000
        gen.config.edgeAt (k - 1) < jam ∧ jam ≤ gen.config.edgeAt (k - 1) + 86400000000000 ∧
        gen.houseChanged h = { gen with label := some { l with
          utc := h.utc, zone := h.zone, jam := h.jam, nextJam := gen.config.firstAtOrAfter jam } }

/-- O49 (tier 2). Writes of lock mode, residence lifetime and loss limit (clamps: log 35), preferred path and
revertive act at once. (R15, R16, R66, R77, R83, R85, R86, R91). The model's own, in notes/assumptions: logs 11,
20, 35. -/
def Obligations.WritesThatMoveLockSelectionOrAges : Prop :=
  ∀ (s : State) (v : BitVec 64), s.Ready →
    (v.toNat > 1 → ∀ c ∈ [Instr.writeLockIndicationMode v, .writePreferredPath v, .writeRevertive v],
      exec c s = .next (s.answered ⟨.badValue, []⟩)) ∧
    (v.toNat ≤ 1 →
      let on := decide (v.toNat = 1)
      let b := State.answered { s with servo := { s.servo with lenient := on } } ⟨.ok, []⟩
      if s.servo.state = .holdover ∧ s.servo.lenient ≠ on then
        ∃ t, exec (.writeLockIndicationMode v) s = .next t ∧
          Raised b (if on then Event.lockGained.set else Event.lockLost.set) t
      else exec (.writeLockIndicationMode v) s = .next b) ∧
    (
      let ended := fun u : State =>
        let free := { u with ctl := { u.ctl with hold := false, heldNotice := false } }
        match s.ctl.hold, u.ctl.heldNotice, u.ctl.destination with
        | true, _, _ => u
        | false, true, some dst => free.noticeMade dst
        | false, _, _ => free
      let n := max 1 (min 1000 v.toNat)
      let due := fun x : ResidenceEntry => decide (n * 65536000000 ≤ x.age)
      ∃ t, exec (.writeResidenceLifetime v) s = .next t ∧
        t.correction = { s.correction with
          lifetime := n, rows := s.correction.rows.map fun r => r.filter fun x => !due x } ∧
        (∀ p : Path,
          let orphans := (List.finRange 32).countP fun i => (s.correction.rows[i]).any fun x => x.path == p && due x
          (t.path p).correction.orphans =
            if orphans = 0 then (s.path p).correction.orphans else bumpBy orphans (s.path p).correction.orphans) ∧
        (
          let expire := fun (u : State) (i : Fin 32) => match u.correction.rows[i] with
            | none => u
            | some x => if due x then
                State.raise .residenceOrphan (State.modPath
                  { u with correction := { u.correction with rows := u.correction.rows.set i none } } x.path fun q =>
                  { q with correction := { q.correction with orphans := bump q.correction.orphans } })
              else u
          t = State.answered (ended ((List.finRange 32).foldl expire
            { s with correction := { s.correction with lifetime := n }, ctl := { s.ctl with hold := true } })) ⟨.ok, []⟩) ∧
        ((∃ (i : Fin 32) (x : ResidenceEntry), s.correction.rows[i] = some x ∧ due x = true) →
          t.ctl.isSet .residenceOrphan = true) ∧
        ((∀ (i : Fin 32) (x : ResidenceEntry), s.correction.rows[i] = some x → due x = false) →
          t = State.answered { s with correction := { s.correction with lifetime := n } } ⟨.ok, []⟩) ∧
        t.servo = s.servo ∧ t.sources = s.sources ∧ t.gens = s.gens ∧ t.lines = s.lines ∧ t.flow = s.flow) ∧
    (
      let ended := fun u : State =>
        let free := { u with ctl := { u.ctl with hold := false, heldNotice := false } }
        match s.ctl.hold, u.ctl.heldNotice, u.ctl.destination with
        | true, _, _ => u
        | false, true, some dst => free.noticeMade dst
        | false, _, _ => free
      let n := max 2 (min 10 v.toNat)
      let due := fun x : SourceEntry => decide (x.state ≠ .lost ∧ n * expSeconds x.offerExp ≤ x.sinceOffer)
      ∃ t, exec (.writeLossLimit v) s = .next t ∧ t.sources.lossLimit = n ∧
        (∀ i : Fin 16, t.sources.table[i] = (s.sources.table[i]).map fun x =>
          if due x then { x with state := .lost, count := 0, sinceLost := 0 } else x) ∧
        (∀ p : Path,
          let losses := (List.finRange 16).countP fun i => (s.sources.table[i]).any fun x => x.path == p && due x
          (t.path p).sources =
            { (s.path p).sources with losses :=
              if losses = 0 then (s.path p).sources.losses else bumpBy losses (s.path p).sources.losses }) ∧
        (
          let lose := fun (u : State) (i : Fin 16) => match u.sources.table[i] with
            | none => u
            | some x => if due x then
                let lost := State.modPath { u with sources := { u.sources with
                    table := u.sources.table.set i (some { x with state := .lost, count := 0, sinceLost := 0 }) } }
                  x.path fun q => { q with sources := { q.sources with losses := bump q.sources.losses } }
                (if u.sources.selected = some i then lost.raise .sourceLost else lost).runSelection
              else u
          t = State.answered (ended ((List.finRange 16).foldl lose
            { s with sources := { s.sources with lossLimit := n }, ctl := { s.ctl with hold := true } })) ⟨.ok, []⟩) ∧
        (∀ (i : Fin 16) (x : SourceEntry), s.sources.selected = some i → s.sources.table[i] = some x → due x = true →
          (∀ (j : Fin 16) (y : SourceEntry), j < i → s.sources.table[j] = some y → due y = false) →
          t.ctl.isSet .sourceLost = true) ∧
        ((∀ (i : Fin 16) (x : SourceEntry), s.sources.table[i] = some x → due x = false) →
          t = State.answered { s with sources := { s.sources with lossLimit := n } } ⟨.ok, []⟩) ∧
        t.lines = s.lines ∧ t.flow = s.flow ∧ t.correction = s.correction ∧ t.classifier = s.classifier) ∧
    ∀ (c : Instr) (b : State), v.toNat ≤ 1 →
      (c = .writePreferredPath v ∧ b = { s with sources := { s.sources with
          preferred := if v.toNat = 0 then .a else .b } }) ∨
        (c = .writeRevertive v ∧ b = { s with sources := { s.sources with revertive := decide (v.toNat = 1) } }) →
      (b.nextSelected = s.sources.selected → exec c s = .next (b.runSelection.answered ⟨.ok, []⟩)) ∧
      (b.nextSelected ≠ s.sources.selected → ∃ t, exec c s = .next t ∧ t.sources.selected = b.nextSelected ∧
        t.ctl.isSet .sourceChanged = true ∧ t.sources.changes = bump s.sources.changes ∧
        t.sources.table = s.sources.table ∧ t.sources.preferred = b.sources.preferred ∧
        t.sources.revertive = b.sources.revertive)

/-- O50 (tier 2). WRITE_ROW refuses read-only tables, wrong lengths, cursors past the table, and else writes the row
its bytes spell (logs 12, 46, 48). (R170, R173, R187). The model's own, in notes/assumptions: logs 12, 46, 48. -/
def Obligations.RowBytesAreCheckedThenWritten : Prop :=
  ∀ (s : State) (l : List Byte), s.Ready →
    let lengths := match s.ctl.table with
      | .cadence => [16, 140] | .flow => [28, 56] | .rules => [16] | .managers => [8]
      | .lines => if s.ctl.row < 8 then [16, 24] else [4, 24]
      | .source | .residence => []
    let rows := match s.ctl.table with
      | .cadence => 16 | .flow => 64 | .source => 16 | .rules => 8 | .managers => 4 | .residence => 32 | .lines => 12
    (s.ctl.table = .source ∨ s.ctl.table = .residence → exec (.writeRow l) s = .next (s.answered ⟨.readOnly, []⟩)) ∧
    (s.ctl.table ≠ .source → s.ctl.table ≠ .residence →
      l.length ∉ lengths ∨ rows ≤ s.ctl.row →
      exec (.writeRow l) s = .next (s.answered ⟨.badValue, []⟩)) ∧
    (l.length ∈ lengths → s.ctl.row < rows →
      (s.ctl.table = .cadence → exec (.writeRow l) s = exec (.writeRowCadence
        { enabled := byteAt l 0, labelMode := byteAt l 1, n := BitVec.ofNat 32 (fieldAt l 4 4)
          d := BitVec.ofNat 16 (fieldAt l 8 2), phi := BitVec.ofNat 32 (fieldAt l 12 4) }) s) ∧
      (s.ctl.table = .flow → exec (.writeRow l) s = exec (.writeRowFlow
        { enabled := byteAt l 0, pathSet := byteAt l 1, dirSet := byteAt l 2, stampPos := byteAt l 3
          group := BitVec.ofNat 32 (fieldAt l 4 4), port := BitVec.ofNat 16 (fieldAt l 8 2)
          silence := BitVec.ofNat 16 (fieldAt l 10 2), rate := BitVec.ofNat 32 (fieldAt l 12 4)
          offset := BitVec.ofNat 32 (fieldAt l 16 4), lo := BitVec.ofNat 32 (fieldAt l 20 4)
          hi := BitVec.ofNat 32 (fieldAt l 24 4) }) s) ∧
      (s.ctl.table = .rules → exec (.writeRow l) s = exec (.writeRowRules
        { inUse := byteAt l 0, pathSet := byteAt l 1, action := byteAt l 2, rank := byteAt l 3, form := byteAt l 4
          ident := BitVec.ofNat 64 (fieldAt l 8 8) }) s) ∧
      (∀ i : Fin 4, s.ctl.table = .managers → s.ctl.row = i.val →
        exec (.writeRow l) s = .next (if (byteAt l 0).toNat ≤ 1 then
            State.answered { s with ctl := { s.ctl with
              managers := s.ctl.managers.set i
                (if (byteAt l 0).toNat = 0 then none else some (BitVec.ofNat 48 (fieldAt l 2 6)))
              row := i.val + 1 } } ⟨.ok, []⟩
          else s.answered ⟨.badValue, []⟩)) ∧
      (s.ctl.table = .lines →
        ((byteAt l 0).toNat = 0 → exec (.writeRow l) s = exec (.writeRowLines (.output
          { mode := byteAt l 1, cadence := byteAt l 2, polarity := byteAt l 3
            divisor := BitVec.ofNat 16 (fieldAt l 4 2), phase := BitVec.ofNat 16 (fieldAt l 6 2)
            width := BitVec.ofNat 32 (fieldAt l 8 4), mute := byteAt l 12, level := byteAt l 13 })) s) ∧
        ((byteAt l 0).toNat = 1 → exec (.writeRow l) s =
          exec (.writeRowLines (.input { edge := byteAt l 1, bind := byteAt l 2 })) s) ∧
        (1 < (byteAt l 0).toNat → exec (.writeRow l) s = .next (s.answered ⟨.badValue, []⟩)))) ∧
    ∀ (t : Table) (c : Instr), s.ctl.table ≠ t ∨ rows ≤ s.ctl.row →
      (t = .cadence ∧ ∃ w, c = .writeRowCadence w) ∨ (t = .flow ∧ ∃ w, c = .writeRowFlow w) ∨
        (t = .rules ∧ ∃ w, c = .writeRowRules w) ∨ (t = .managers ∧ ∃ w, c = .writeRowManagers w) ∨
        (t = .lines ∧ ∃ w, c = .writeRowLines w) →
      exec c s = .next (s.answered
        ⟨if s.ctl.table = .source ∨ s.ctl.table = .residence then .readOnly else .badValue, []⟩)

/-- O51 (tier 2). WRITE_ROW to CADENCE accepts exactly the rows of R112; enabled it realigns at once, disabled it
stops the generator. (R112, R113, R114, R120, R121, R122, R124, R135, R139, R145, R150, R173). The model's own, in
notes/assumptions: logs 13, 40, 50. -/
def Obligations.CadenceRowWriteIsCheckedAndRealigns : Prop :=
  ∀ (s : State) (w : CadenceWrite) (i : Fin 16), s.Ready → s.ctl.table = .cadence → s.ctl.row = i.val →
    (∀ c : GenConfig, checkCadence w = some c ↔
      readYesNo w.enabled = some c.enabled ∧ readLabelMode w.labelMode = some c.labelMode ∧
      c.n = w.n.toNat ∧ c.d = w.d.toNat ∧ c.phi = w.phi.toInt ∧
      1 ≤ c.n ∧ c.n ≤ 1000000 ∧ 1 ≤ c.d ∧ c.d ≤ 65535 ∧ -999999999 ≤ c.phi ∧ c.phi ≤ 999999999 ∧
      1000 * c.n ≤ c.d * 1000000000 ∧ c.d * 1000000000 ≤ 4294967295 * c.n ∧
      (c.labelMode = .df → (c.n = 30000 ∨ c.n = 60000) ∧ c.d = 1001) ∧
      (c.labelMode = .ndf → (c.n + c.d - 1) / c.d ≤ 60)) ∧
    (checkCadence w = none → exec (.writeRowCadence w) s = .next (s.answered ⟨.badValue, []⟩)) ∧
    ∀ c : GenConfig, checkCadence w = some c →
      (c.enabled = false → exec (.writeRowCadence w) s = .next (State.answered { s with
        gens := s.gens.set i { s.gens[i] with
          config := c, condition := .disabled, next := none, instant := none, remainder := none, last := none
          label := none }
        ctl := { s.ctl with row := i.val + 1 } } ⟨.ok, []⟩)) ∧
      (c.enabled = true → ∃ t fl, exec (.writeRowCadence w) s = .next t ∧ (fl = 0 ∨ fl = Event.tcWrap.set) ∧
        Raised (State.answered { s with
          gens := t.gens
          lines := { s.lines with outputs := t.lines.outputs }
          ctl := { s.ctl with row := i.val + 1 } } ⟨.ok, []⟩) fl t ∧
        (
          let u : Int := (s.servo.time.sec * 1000000000 + s.servo.time.ns : Nat)
          Generator.Realigned s.sources.house u .write { (s.gens[i]).dueEmitted c u with config := c } t.gens[i] ∧
          ∀ j : Fin 8, t.lines.outputs[j] =
            let l := s.lines.outputs[j]
            if l.cadence = i then l.afterRealign s.servo.lockIndication true c u s.gens[i] else l) ∧
        (t.gens[i]).condition ≠ .disabled ∧ ∀ j : Fin 16, j ≠ i → t.gens[j] = s.gens[j])

/-- O52 (tier 2). WRITE_ROW to FLOW, MANAGERS, RULES and LINES store an accepted row, advance the cursor, and refuse
others unchanged. (R83, R143, R146, R149, R153, R158, R159, R173, R174). The model's own, in notes/assumptions:
logs 13, 28, 46, 51. -/
def Obligations.FlowManagerRuleAndLineRowWrites : Prop :=
  ∀ s : State, s.Ready →
    (∀ (w : FlowWrite) (i : Fin 64), s.ctl.table = .flow → s.ctl.row = i.val →
      (∀ c : FlowConfig, checkFlow w = some c ↔
        readYesNo w.enabled = some c.enabled ∧ readPathSet w.pathSet = some c.paths ∧ readDirSet w.dirSet = some c.dirs ∧
        c.group = w.group ∧ c.port = w.port ∧ c.rate = w.rate.toNat ∧ c.offset = w.offset.toInt ∧
        c.position = w.stampPos.toNat ∧ c.lo = w.lo.toInt ∧ c.hi = w.hi.toInt ∧ c.silence = w.silence.toNat ∧
        1 ≤ c.rate ∧ c.rate ≤ 1000000 ∧ c.position ≤ 60 ∧ c.lo ≤ c.hi) ∧
      (∀ c : FlowConfig, s.flow.duplicates i c = true ↔ c.enabled = true ∧ ∃ j : Fin 64, j ≠ i ∧
        let o := (s.flow.rows[j]).config
        o.enabled = true ∧ o.group = c.group ∧ o.port = c.port ∧
        ((o.paths.a = true ∧ c.paths.a = true) ∨ (o.paths.b = true ∧ c.paths.b = true)) ∧
        ((o.dirs.down = true ∧ c.dirs.down = true) ∨ (o.dirs.up = true ∧ c.dirs.up = true))) ∧
      (checkFlow w = none → exec (.writeRowFlow w) s = .next (s.answered ⟨.badValue, []⟩)) ∧
      ∀ c, checkFlow w = some c → exec (.writeRowFlow w) s = .next (if s.flow.duplicates i c then
          s.answered ⟨.duplicate, []⟩
        else State.answered { s with
          flow := { s.flow with rows := s.flow.rows.set i ⟨c, ⟨.idle, 0, none, 0, false, none⟩⟩ }
          ctl := { s.ctl with row := i.val + 1 } } ⟨.ok, []⟩)) ∧
    (∀ (w : ManagerWrite) (i : Fin 4), s.ctl.table = .managers → s.ctl.row = i.val →
      exec (.writeRowManagers w) s = .next (if w.inUse.toNat ≤ 1 then
          State.answered { s with ctl := { s.ctl with
            managers := s.ctl.managers.set i (if w.inUse.toNat = 0 then none else some w.station)
            row := i.val + 1 } } ⟨.ok, []⟩
        else s.answered ⟨.badValue, []⟩)) ∧
    (∀ (w : RuleWrite) (i : Fin 8), s.ctl.table = .rules → s.ctl.row = i.val →
      (∀ r : Option SourceRule, checkRule w = some r ↔ (w.inUse.toNat = 0 ∧ r = none) ∨
        (w.inUse.toNat = 1 ∧ w.action.toNat ≤ 1 ∧ w.form.toNat ≤ 1 ∧ ∃ ps, readPathSet w.pathSet = some ps ∧
          r = some ⟨if w.form.toNat = 0 then some w.ident else none, ps,
            if w.action.toNat = 0 then .prefer w.rank.toNat else .bar⟩)) ∧
      (checkRule w = none → exec (.writeRowRules w) s = .next (s.answered ⟨.badValue, []⟩)) ∧
      ∀ r, checkRule w = some r →
        let q : Sources := { s.sources with rules := s.sources.rules.set i r }
        let stand := fun x : SourceEntry =>
          let st := q.standing x.sender x.path
          { x with ruleRow := st.1, rank := st.2.1, barred := st.2.2 }
        let b : State := { s with
          sources := { q with table := s.sources.table.map (·.map stand) }
          ctl := { s.ctl with row := i.val + 1 } }
        (b.nextSelected = s.sources.selected → exec (.writeRowRules w) s = .next (b.runSelection.answered ⟨.ok, []⟩)) ∧
        (b.nextSelected ≠ s.sources.selected → ∃ t, exec (.writeRowRules w) s = .next t ∧
          t.sources.selected = b.nextSelected ∧ t.ctl.isSet .sourceChanged = true ∧ t.ctl.row = i.val + 1 ∧
          t.sources.table = b.sources.table ∧ t.sources.rules = b.sources.rules)) ∧
    (∀ (q : Sources) (who : Ident) (p : Path),
      let covers := fun r : SourceRule => (r.sender = none ∨ r.sender = some who) ∧
        match p with | .a => r.paths.a = true | .b => r.paths.b = true
      (∀ (i : Fin 8) (r : SourceRule), q.rules[i] = some r → covers r →
        (∀ (j : Fin 8) (r' : SourceRule), j < i → q.rules[j] = some r' → ¬ covers r') →
        q.standing who p = match r.action with
          | .prefer rank => (some i, rank, false)
          | .bar => (some i, 128, true)) ∧
      ((∀ (i : Fin 8) (r : SourceRule), q.rules[i] = some r → ¬ covers r) → q.standing who p = (none, 128, false))) ∧
    (∀ (w : OutputWrite) (i : Fin 8), s.ctl.table = .lines → s.ctl.row = i.val →
      (∀ k : InputWrite, exec (.writeRowLines (.input k)) s = .next (s.answered ⟨.badValue, []⟩)) ∧
      exec (.writeRowLines .otherForm) s = .next (s.answered ⟨.badValue, []⟩) ∧
      (((s.lines.outputs[i]).write w).isSome = true ↔ w.mode.toNat ≤ 4 ∧ w.polarity.toNat ≤ 1 ∧ w.mute.toNat ≤ 1 ∧
        w.level.toNat ≤ 1 ∧ w.cadence.toNat ≤ 15 ∧ w.divisor.toNat ≠ 0) ∧
      exec (.writeRowLines (.output w)) s = .next (match (s.lines.outputs[i]).write w with
        | none => s.answered ⟨.badValue, []⟩
        | some l => State.answered { s with
            lines := { s.lines with outputs := s.lines.outputs.set i l }, ctl := { s.ctl with row := i.val + 1 } } ⟨.ok, []⟩) ∧
      ∀ l, (s.lines.outputs[i]).write w = some l →
        readLineMode w.mode = some l.mode ∧ readPolarity w.polarity = some l.activeLow ∧
        readYesNo w.mute = some l.muted ∧ readLevel w.level = some l.level ∧
        l.divisor = w.divisor.toNat ∧ 1 ≤ l.divisor ∧ l.phase = min w.phase.toNat (w.divisor.toNat - 1) ∧
        l.cadence.val = w.cadence.toNat ∧ l.width = w.width.toNat ∧ l.pulseEnd = (s.lines.outputs[i]).pulseEnd ∧
        l.oneShot = (if l.mode = .oneshot then some .armed else none) ∧
        l.state = (if (s.lines.outputs[i]).pulseEnd.isSome then (s.lines.outputs[i]).state else match l.mode with
          | .static => l.level
          | .pulse => .inactive
          | .square => .inactive
          | _ => (s.lines.outputs[i]).state)) ∧
    ∀ (w : InputWrite) (i : Fin 4), s.ctl.table = .lines → s.ctl.row = i.val + 8 →
      (∀ k : OutputWrite, exec (.writeRowLines (.output k)) s = .next (s.answered ⟨.badValue, []⟩)) ∧
      exec (.writeRowLines .otherForm) s = .next (s.answered ⟨.badValue, []⟩) ∧
      exec (.writeRowLines (.input w)) s = .next (
        if h : w.edge.toNat ≤ 3 ∧ (w.bind.toNat ≤ 15 ∨ w.bind.toNat = 255) then
          let edges : EdgeSelect := match w.edge.toNat with
            | 0 => .none
            | 1 => .rising
            | 2 => .falling
            | _ => .both
          let bound : Option (Fin 16) := if b : w.bind.toNat < 16 then some ⟨w.bind.toNat, b⟩ else none
          State.answered { s with
            lines := { s.lines with inputs := s.lines.inputs.set i ⟨edges, bound, (s.lines.inputs[i]).high⟩ }
            ctl := { s.ctl with row := i.val + 9 } } ⟨.ok, []⟩
        else s.answered ⟨.badValue, []⟩)

/-- O53 (tier 2). SERVO_RESTART re-enters discipline at the learned rate, SET_TIME steps in FREERUN alone, SOFT_RESET
keeps configuration. (R18, R19, R22, R40, R52, R59, R72, R93, R110, R122, R145, R181). The model's own, in
notes/assumptions: logs 8, 11, 17, 25, 40, 50. -/
def Obligations.ServoRestartSetTimeAndSoftReset : Prop :=
  ∀ s : State, s.Ready →
    (
      let fr := s.sources.selected = none ∧ s.servo.state ≠ .freerun
      let b := State.answered { s with servo := { s.servo with
        hasLocked := false, stage := s.servo.startStage, inWindow := 0, outlierCount := 0, trim := s.servo.acc
        timer := .stopped, state := if s.sources.selected.isSome then .acquire else .freerun } } ⟨.ok, []⟩
      ∃ t, exec .servoRestart s = .next t ∧ Raised b
        ((if fr then Event.freerunEntered.set else 0) ||| (if s.servo.lockIndication then Event.lockLost.set else 0)) t) ∧
    (∀ (sec : BitVec 48) (ns : BitVec 32) (sub : BitVec 16),
      (s.servo.state ≠ .freerun → exec (.setTime sec ns sub) s = .next (s.answered ⟨.state, []⟩)) ∧
      (s.servo.state = .freerun → 999999999 < ns.toNat →
        exec (.setTime sec ns sub) s = .next (s.answered ⟨.badValue, []⟩)) ∧
      (s.servo.state = .freerun → ns.toNat ≤ 999999999 → ∃ t, exec (.setTime sec ns sub) s = .next t ∧
        t.servo = { s.servo with
          time := ⟨sec.toNat, ns.toNat, sub.toNat⟩, frac := 0, quiet := 2 ^ (s.servo.quietCode + 1) } ∧
        t.ctl.isSet .step = true ∧ t.ctl.lastResult = some ⟨.ok, []⟩ ∧
        (
          let sum : Int := s.correction.stepSum + (t.now - s.now)
          let fits := indexMin ≤ sum ∧ sum ≤ indexMax
          t.correction = { s.correction with
            stepSum := if fits then sum else (stepSumBeyond s.free sum).toInt } ∧
          t.free = if fits then s.free else s.free + 1) ∧
        t.sources = { s.sources with
          table := s.sources.table.map (·.map fun r => { r with leg := none, pending := none }) } ∧
        (∀ p : Path, (t.path p).measure.record = none) ∧
        (∀ g : Fin 16, if (s.gens[g]).config.enabled then
            let u : Int := (sec.toNat * 1000000000 + ns.toNat : Nat)
            let a := if sec.toNat = s.servo.time.sec ∧ ns.toNat = s.servo.time.ns then
              (s.gens[g]).dueEmitted (s.gens[g]).config u else s.gens[g]
            Generator.Realigned s.sources.house u .setTime a t.gens[g] ∧
            t.ctl.isSet .realign = true
          else t.gens[g] = s.gens[g]) ∧
        (∀ i : Fin 8, t.lines.outputs[i] =
          let l := s.lines.outputs[i]
          let a := s.gens[l.cadence]
          if a.config.enabled then
            l.afterRealign false (decide (sec.toNat = s.servo.time.sec ∧ ns.toNat = s.servo.time.ns)) a.config
              (sec.toNat * 1000000000 + ns.toNat : Nat) a
          else l) ∧
        t.lines.inputs = s.lines.inputs ∧ t.lines.overflow = s.lines.overflow ∧
        t.flow = s.flow ∧ t.classifier = s.classifier ∧ t.lines.fifo = s.lines.fifo ∧ t.osc = s.osc)) ∧
    (s.ctl.hold = true → exec .softReset s =
      .next (State.answered { s with ctl := { s.ctl with softReset := true } } ⟨.ok, []⟩)) ∧
    (s.ctl.hold = false →
      let quietPort := fun q : PortState => { q with
        received := 0, transmitted := 0, checkDrops := 0, oversize := 0, cuts := 0 }
      let quietBuffer := fun b : ThroughBuffer => { b with admitted := 0, fullDrops := 0, linkDrops := 0 }
      exec .softReset s = .next { s with
        servo := { s.servo with
          state := .freerun, hasLocked := false, stage := s.servo.startStage, inWindow := 0, outlierCount := 0
          quiet := 0, timer := .stopped, lastOffset := 0, count := ⟨0, 0, 0, 0, 0, 0, 0⟩ }
        paths := s.paths.map fun q => { q with
          net := quietPort q.net
          eq := quietPort q.eq
          classified := ⟨0, 0, 0, 0, 0⟩
          down := quietBuffer q.down
          up := quietBuffer q.up
          queues := { q.queues with timeSent := 0, mgmtSent := 0, mgmtDrops := 0, linkDiscards := 0 }
          arb := { q.arb with throughServed := 0, timeServed := 0, mgmtServed := 0, skips := 0, idle := 0 }
          correction := ⟨0, 0, 0, 0, 0, 0, 0, 0, 0⟩
          sources := ⟨0, 0, 0, 0, 0, 0, 0, 0, 0⟩
          measure := { q.measure with
            lead := none, record := none, count := ⟨0, 0, 0, 0, 0, 0, 0, 0, 0, 0, 0, 0, 0, 0, 0, 0⟩ } }
        correction := { s.correction with rows := Vector.replicate 32 none }
        sources := { s.sources with table := Vector.replicate 16 none, selected := none, changes := 0 }
        gens := s.gens.map fun g => { g with realigns := 0, wraps := 0, jams := 0 }
        lines := { s.lines with fifo := [], overflow := 0 }
        flow := { s.flow with
          rows := s.flow.rows.map fun r => { r with stats := ⟨.idle, 0, none, 0, false, none⟩ }
          measurements := 0, shorts := 0, silences := 0 }
        ctl := { s.ctl with
          flags := 0, timer := none, pendingMark := false, sequence := 0, lastResult := some ⟨.ok, []⟩
          count := ⟨0, 0, 0, 0, 0, 0⟩ } })

/-- O54 (tier 2). REALIGN, JAM, LINE_SET and LINE_CLEAR act on the named generators and lines alone, with the result
OK. (R120, R121, R122, R124, R125, R135, R137, R139, R145, R149, R150). The model's own, in notes/assumptions: logs
40, 50. -/
def Obligations.MaskCommandsReachTheNamedRows : Prop :=
  ∀ s : State, s.Ready →
    (∀ mask : BitVec 16, ∃ t fl, exec (.realign mask) s = .next t ∧ (fl = 0 ∨ fl = Event.tcWrap.set) ∧
      Raised (State.answered { s with gens := t.gens, lines := { s.lines with outputs := t.lines.outputs } } ⟨.ok, []⟩) fl t ∧
      ∀ g : Fin 16, if mask.getLsbD g.val && (s.gens[g]).config.enabled then
          let u : Int := (s.servo.time.sec * 1000000000 + s.servo.time.ns : Nat)
          Generator.Realigned s.sources.house u .command ((s.gens[g]).dueEmitted (s.gens[g]).config u) t.gens[g] ∧
          (t.gens[g]).condition ≠ .disabled ∧
          ∀ i : Fin 8, (s.lines.outputs[i]).cadence = g → t.lines.outputs[i] =
            (s.lines.outputs[i]).afterRealign s.servo.lockIndication true (s.gens[g]).config u s.gens[g]
        else t.gens[g] = s.gens[g] ∧
          ∀ i : Fin 8, (s.lines.outputs[i]).cadence = g → t.lines.outputs[i] = s.lines.outputs[i]) ∧
    (∀ (mask : BitVec 16) (g : Fin 16) (s1 t t1 : State), s.servo.Sound → (s.gens[g]).Lawful →
      (∀ j : Fin 16, mask.getLsbD j.val = decide (j = g)) → (s.gens[g]).condition = .running →
      (s.gens[g]).instant = some (wholeNs s.servo.time : Int) →
      exec (.generatorEdge 0 g) s = .next s1 → exec (.realign mask) s = .next t → exec (.realign mask) s1 = .next t1 →
      t.lines = t1.lines ∧
      { t.gens[g] with label := none, wraps := 0, jams := 0 } = { t1.gens[g] with label := none, wraps := 0, jams := 0 } ∧
      (t.gens[g]).last = (s.gens[g]).next.map (⟨·, wholeNs s.servo.time⟩)) ∧
    (∀ mask : BitVec 16, ∃ t, exec (.jam mask) s = .next t ∧ t = State.answered { s with gens := t.gens } ⟨.ok, []⟩ ∧
      ∀ g : Fin 16,
        let gen := s.gens[g]
        ((mask.getLsbD g.val = false ∨ gen.condition ≠ .running ∨ gen.label = none) → t.gens[g] = gen) ∧
        ∀ l, mask.getLsbD g.val = true → gen.condition = .running → gen.label = some l →
          let h := s.sources.house
          let c : Int := (h.jam + h.utc - h.zone) * 1000000000
          let u : Int := s.servo.time.sec * 1000000000 + s.servo.time.ns
          let prev : Int := Int.fdiv (u - c) 86400000000000 * 86400000000000 + c
          t.gens[g] = { gen with label := some { l with
            jamEdge := gen.config.firstAtOrAfter prev
            nextJam := gen.config.firstAtOrAfter (prev + 86400000000000)
            utc := h.utc, zone := h.zone, jam := h.jam } }) ∧
    ∀ (mask : BitVec 8) (c : Instr) (v : Level),
      (c = .lineSet mask ∧ v = .active) ∨ (c = .lineClear mask ∧ v = .inactive) →
      ∃ t, exec c s = .next t ∧
        t = State.answered { s with lines := { s.lines with outputs := t.lines.outputs } } ⟨.ok, []⟩ ∧
        ∀ i : Fin 8, t.lines.outputs[i] = if mask.getLsbD i.val = true ∧ (s.lines.outputs[i]).mode = .static then
            { s.lines.outputs[i] with
              level := v, state := if (s.lines.outputs[i]).pulseEnd.isSome then (s.lines.outputs[i]).state else v }
          else s.lines.outputs[i]

/-- O55 (tier 1). The state after reset meets every invariant that the statements say each step keeps. (R22, R53,
R94, R128, R157, R168, R180). -/
def Obligations.ResetStateMeetsEveryInvariant : Prop :=
  State.reset.servo.Sound ∧ State.reset.servo.Ranged ∧ (∀ p, (State.reset.path p).Bounded) ∧ State.reset.lines.Bounded ∧
    State.reset.flow.NoOverlap ∧ State.reset.ctl.Sound ∧ State.reset.ctl.HoldSound ∧
    (∀ g : Fin 16, (State.reset.gens[g]).Lawful) ∧ State.reset.sources.KeysUnique ∧
    State.reset.correction.KeysUnique ∧ State.reset.SelectedEligible ∧ State.reset.Ready

/-- O56 (tier 3). Every step keeps the timescale in normal form, trim and accumulator within the limit, and the
control unit sound. (R1, R9, R10, R20, R173, R176, R178). -/
def Obligations.EveryStepKeepsTheServoAndControlSound : Prop :=
  ∀ s t : State, step s = .next t →
    (s.servo.Sound → t.servo.Sound) ∧ (s.servo.Sound → s.servo.Ranged → t.servo.Ranged) ∧ (s.ctl.Sound → t.ctl.Sound) ∧ (s.ctl.HoldSound → t.ctl.HoldSound)

/-- O57 (tier 3). Every step keeps every buffer, queue and the capture FIFO within its limit, and no two enabled flow
rows overlapping. (R41, R42, R45, R46, R155, R158). -/
def Obligations.EveryStepKeepsBuffersAndFlowRowsBounded : Prop :=
  ∀ s t : State, step s = .next t →
    ((∀ p, (s.path p).Bounded) → ∀ p, (t.path p).Bounded) ∧
    (s.lines.Bounded → t.lines.Bounded) ∧
    (s.flow.NoOverlap → t.flow.NoOverlap)

/-- O58 (tier 3). Every step keeps each generator's law: next instant and remainder are exactly those of its next
edge index. (R111, R112, R115, R116, R117, R118, R120). -/
def Obligations.EveryStepKeepsTheEdgeLaw : Prop :=
  ∀ s t : State, step s = .next t → (∀ g : Fin 16, (s.gens[g]).Lawful) → ∀ g : Fin 16, (t.gens[g]).Lawful

/-- O59 (tier 3). Every step keeps source and residence keys unique, and a selected entry eligible. (R63, R73, R82,
R85, R86). -/
def Obligations.EveryStepKeepsKeysUniqueAndSelectionEligible : Prop :=
  ∀ s t : State, step s = .next t →
    (s.sources.KeysUnique → t.sources.KeysUnique) ∧
    (s.correction.KeysUnique → t.correction.KeysUnique) ∧
    (s.SelectedEligible → t.SelectedEligible)

/-- O60 (tier 2). No event changes the lock indication without its flag: gained sets LOCK_GAINED, lost sets
LOCK_LOST. (R15, R16). -/
def Obligations.LockChangesAreFlagged : Prop :=
  ∀ (c : Instr) (s t : State), c.isPlainEvent = true → exec c s = .next t →
    (s.servo.lockIndication = false → t.servo.lockIndication = true → t.ctl.isSet .lockGained = true) ∧
    (s.servo.lockIndication = true → t.servo.lockIndication = false → t.ctl.isSet .lockLost = true)
end

