-- ==== Sys2Proof/Laws/State.lean ====
section
/-! SUPPORT. The fields of the state after each update of a part of it: what the update changes, and that it changes
nothing else. Each holds by definition. -/

namespace Sys2Proof.Machine

variable (s : State)

@[simp] theorem State.modPath_inReset (p : Path) (f : PathState → PathState) : (s.modPath p f).inReset = s.inReset := rfl
@[simp] theorem State.modPath_osc (p : Path) (f : PathState → PathState) : (s.modPath p f).osc = s.osc := rfl
@[simp] theorem State.modPath_servo (p : Path) (f : PathState → PathState) : (s.modPath p f).servo = s.servo := rfl
@[simp] theorem State.modPath_paths (p : Path) (f : PathState → PathState) :
    (s.modPath p f).paths = s.paths.set p (f (s.paths.get p)) := rfl
@[simp] theorem State.modPath_classifier (p : Path) (f : PathState → PathState) : (s.modPath p f).classifier = s.classifier := rfl
@[simp] theorem State.modPath_correction (p : Path) (f : PathState → PathState) : (s.modPath p f).correction = s.correction := rfl
@[simp] theorem State.modPath_sources (p : Path) (f : PathState → PathState) : (s.modPath p f).sources = s.sources := rfl
@[simp] theorem State.modPath_gens (p : Path) (f : PathState → PathState) : (s.modPath p f).gens = s.gens := rfl
@[simp] theorem State.modPath_lines (p : Path) (f : PathState → PathState) : (s.modPath p f).lines = s.lines := rfl
@[simp] theorem State.modPath_flow (p : Path) (f : PathState → PathState) : (s.modPath p f).flow = s.flow := rfl
@[simp] theorem State.modPath_ctl (p : Path) (f : PathState → PathState) : (s.modPath p f).ctl = s.ctl := rfl
@[simp] theorem State.modPath_free (p : Path) (f : PathState → PathState) : (s.modPath p f).free = s.free := rfl
@[simp] theorem State.modPath_pending (p : Path) (f : PathState → PathState) : (s.modPath p f).pending = s.pending := rfl

@[simp] theorem State.modPort_inReset (p : Port) (f : PortState → PortState) : (s.modPort p f).inReset = s.inReset := rfl
@[simp] theorem State.modPort_osc (p : Port) (f : PortState → PortState) : (s.modPort p f).osc = s.osc := rfl
@[simp] theorem State.modPort_servo (p : Port) (f : PortState → PortState) : (s.modPort p f).servo = s.servo := rfl
@[simp] theorem State.modPort_paths (p : Port) (f : PortState → PortState) :
    (s.modPort p f).paths = s.paths.set p.path ((s.paths.get p.path).modPort p.isNet f) := rfl
@[simp] theorem State.modPort_classifier (p : Port) (f : PortState → PortState) : (s.modPort p f).classifier = s.classifier := rfl
@[simp] theorem State.modPort_correction (p : Port) (f : PortState → PortState) : (s.modPort p f).correction = s.correction := rfl
@[simp] theorem State.modPort_sources (p : Port) (f : PortState → PortState) : (s.modPort p f).sources = s.sources := rfl
@[simp] theorem State.modPort_gens (p : Port) (f : PortState → PortState) : (s.modPort p f).gens = s.gens := rfl
@[simp] theorem State.modPort_lines (p : Port) (f : PortState → PortState) : (s.modPort p f).lines = s.lines := rfl
@[simp] theorem State.modPort_flow (p : Port) (f : PortState → PortState) : (s.modPort p f).flow = s.flow := rfl
@[simp] theorem State.modPort_ctl (p : Port) (f : PortState → PortState) : (s.modPort p f).ctl = s.ctl := rfl
@[simp] theorem State.modPort_free (p : Port) (f : PortState → PortState) : (s.modPort p f).free = s.free := rfl
@[simp] theorem State.modPort_pending (p : Port) (f : PortState → PortState) : (s.modPort p f).pending = s.pending := rfl

@[simp] theorem State.modServo_inReset (f : Servo → Servo) : (s.modServo f).inReset = s.inReset := rfl
@[simp] theorem State.modServo_osc (f : Servo → Servo) : (s.modServo f).osc = s.osc := rfl
@[simp] theorem State.modServo_servo (f : Servo → Servo) : (s.modServo f).servo = f s.servo := rfl
@[simp] theorem State.modServo_paths (f : Servo → Servo) : (s.modServo f).paths = s.paths := rfl
@[simp] theorem State.modServo_classifier (f : Servo → Servo) : (s.modServo f).classifier = s.classifier := rfl
@[simp] theorem State.modServo_correction (f : Servo → Servo) : (s.modServo f).correction = s.correction := rfl
@[simp] theorem State.modServo_sources (f : Servo → Servo) : (s.modServo f).sources = s.sources := rfl
@[simp] theorem State.modServo_gens (f : Servo → Servo) : (s.modServo f).gens = s.gens := rfl
@[simp] theorem State.modServo_lines (f : Servo → Servo) : (s.modServo f).lines = s.lines := rfl
@[simp] theorem State.modServo_flow (f : Servo → Servo) : (s.modServo f).flow = s.flow := rfl
@[simp] theorem State.modServo_ctl (f : Servo → Servo) : (s.modServo f).ctl = s.ctl := rfl
@[simp] theorem State.modServo_free (f : Servo → Servo) : (s.modServo f).free = s.free := rfl
@[simp] theorem State.modServo_pending (f : Servo → Servo) : (s.modServo f).pending = s.pending := rfl

@[simp] theorem State.modSources_inReset (f : Sources → Sources) : (s.modSources f).inReset = s.inReset := rfl
@[simp] theorem State.modSources_osc (f : Sources → Sources) : (s.modSources f).osc = s.osc := rfl
@[simp] theorem State.modSources_servo (f : Sources → Sources) : (s.modSources f).servo = s.servo := rfl
@[simp] theorem State.modSources_paths (f : Sources → Sources) : (s.modSources f).paths = s.paths := rfl
@[simp] theorem State.modSources_classifier (f : Sources → Sources) : (s.modSources f).classifier = s.classifier := rfl
@[simp] theorem State.modSources_correction (f : Sources → Sources) : (s.modSources f).correction = s.correction := rfl
@[simp] theorem State.modSources_sources (f : Sources → Sources) : (s.modSources f).sources = f s.sources := rfl
@[simp] theorem State.modSources_gens (f : Sources → Sources) : (s.modSources f).gens = s.gens := rfl
@[simp] theorem State.modSources_lines (f : Sources → Sources) : (s.modSources f).lines = s.lines := rfl
@[simp] theorem State.modSources_flow (f : Sources → Sources) : (s.modSources f).flow = s.flow := rfl
@[simp] theorem State.modSources_ctl (f : Sources → Sources) : (s.modSources f).ctl = s.ctl := rfl
@[simp] theorem State.modSources_free (f : Sources → Sources) : (s.modSources f).free = s.free := rfl
@[simp] theorem State.modSources_pending (f : Sources → Sources) : (s.modSources f).pending = s.pending := rfl

@[simp] theorem State.modControl_inReset (f : Control → Control) : (s.modControl f).inReset = s.inReset := rfl
@[simp] theorem State.modControl_osc (f : Control → Control) : (s.modControl f).osc = s.osc := rfl
@[simp] theorem State.modControl_servo (f : Control → Control) : (s.modControl f).servo = s.servo := rfl
@[simp] theorem State.modControl_paths (f : Control → Control) : (s.modControl f).paths = s.paths := rfl
@[simp] theorem State.modControl_classifier (f : Control → Control) : (s.modControl f).classifier = s.classifier := rfl
@[simp] theorem State.modControl_correction (f : Control → Control) : (s.modControl f).correction = s.correction := rfl
@[simp] theorem State.modControl_sources (f : Control → Control) : (s.modControl f).sources = s.sources := rfl
@[simp] theorem State.modControl_gens (f : Control → Control) : (s.modControl f).gens = s.gens := rfl
@[simp] theorem State.modControl_lines (f : Control → Control) : (s.modControl f).lines = s.lines := rfl
@[simp] theorem State.modControl_flow (f : Control → Control) : (s.modControl f).flow = s.flow := rfl
@[simp] theorem State.modControl_ctl (f : Control → Control) : (s.modControl f).ctl = f s.ctl := rfl
@[simp] theorem State.modControl_free (f : Control → Control) : (s.modControl f).free = s.free := rfl
@[simp] theorem State.modControl_pending (f : Control → Control) : (s.modControl f).pending = s.pending := rfl

@[simp] theorem State.modCorrection_inReset (f : Correction → Correction) : (s.modCorrection f).inReset = s.inReset := rfl
@[simp] theorem State.modCorrection_osc (f : Correction → Correction) : (s.modCorrection f).osc = s.osc := rfl
@[simp] theorem State.modCorrection_servo (f : Correction → Correction) : (s.modCorrection f).servo = s.servo := rfl
@[simp] theorem State.modCorrection_paths (f : Correction → Correction) : (s.modCorrection f).paths = s.paths := rfl
@[simp] theorem State.modCorrection_classifier (f : Correction → Correction) : (s.modCorrection f).classifier = s.classifier := rfl
@[simp] theorem State.modCorrection_correction (f : Correction → Correction) : (s.modCorrection f).correction = f s.correction := rfl
@[simp] theorem State.modCorrection_sources (f : Correction → Correction) : (s.modCorrection f).sources = s.sources := rfl
@[simp] theorem State.modCorrection_gens (f : Correction → Correction) : (s.modCorrection f).gens = s.gens := rfl
@[simp] theorem State.modCorrection_lines (f : Correction → Correction) : (s.modCorrection f).lines = s.lines := rfl
@[simp] theorem State.modCorrection_flow (f : Correction → Correction) : (s.modCorrection f).flow = s.flow := rfl
@[simp] theorem State.modCorrection_ctl (f : Correction → Correction) : (s.modCorrection f).ctl = s.ctl := rfl
@[simp] theorem State.modCorrection_free (f : Correction → Correction) : (s.modCorrection f).free = s.free := rfl
@[simp] theorem State.modCorrection_pending (f : Correction → Correction) : (s.modCorrection f).pending = s.pending := rfl

@[simp] theorem State.modLines_inReset (f : Lines → Lines) : (s.modLines f).inReset = s.inReset := rfl
@[simp] theorem State.modLines_osc (f : Lines → Lines) : (s.modLines f).osc = s.osc := rfl
@[simp] theorem State.modLines_servo (f : Lines → Lines) : (s.modLines f).servo = s.servo := rfl
@[simp] theorem State.modLines_paths (f : Lines → Lines) : (s.modLines f).paths = s.paths := rfl
@[simp] theorem State.modLines_classifier (f : Lines → Lines) : (s.modLines f).classifier = s.classifier := rfl
@[simp] theorem State.modLines_correction (f : Lines → Lines) : (s.modLines f).correction = s.correction := rfl
@[simp] theorem State.modLines_sources (f : Lines → Lines) : (s.modLines f).sources = s.sources := rfl
@[simp] theorem State.modLines_gens (f : Lines → Lines) : (s.modLines f).gens = s.gens := rfl
@[simp] theorem State.modLines_lines (f : Lines → Lines) : (s.modLines f).lines = f s.lines := rfl
@[simp] theorem State.modLines_flow (f : Lines → Lines) : (s.modLines f).flow = s.flow := rfl
@[simp] theorem State.modLines_ctl (f : Lines → Lines) : (s.modLines f).ctl = s.ctl := rfl
@[simp] theorem State.modLines_free (f : Lines → Lines) : (s.modLines f).free = s.free := rfl
@[simp] theorem State.modLines_pending (f : Lines → Lines) : (s.modLines f).pending = s.pending := rfl

@[simp] theorem State.modFlow_inReset (f : Flow → Flow) : (s.modFlow f).inReset = s.inReset := rfl
@[simp] theorem State.modFlow_osc (f : Flow → Flow) : (s.modFlow f).osc = s.osc := rfl
@[simp] theorem State.modFlow_servo (f : Flow → Flow) : (s.modFlow f).servo = s.servo := rfl
@[simp] theorem State.modFlow_paths (f : Flow → Flow) : (s.modFlow f).paths = s.paths := rfl
@[simp] theorem State.modFlow_classifier (f : Flow → Flow) : (s.modFlow f).classifier = s.classifier := rfl
@[simp] theorem State.modFlow_correction (f : Flow → Flow) : (s.modFlow f).correction = s.correction := rfl
@[simp] theorem State.modFlow_sources (f : Flow → Flow) : (s.modFlow f).sources = s.sources := rfl
@[simp] theorem State.modFlow_gens (f : Flow → Flow) : (s.modFlow f).gens = s.gens := rfl
@[simp] theorem State.modFlow_lines (f : Flow → Flow) : (s.modFlow f).lines = s.lines := rfl
@[simp] theorem State.modFlow_flow (f : Flow → Flow) : (s.modFlow f).flow = f s.flow := rfl
@[simp] theorem State.modFlow_ctl (f : Flow → Flow) : (s.modFlow f).ctl = s.ctl := rfl
@[simp] theorem State.modFlow_free (f : Flow → Flow) : (s.modFlow f).free = s.free := rfl
@[simp] theorem State.modFlow_pending (f : Flow → Flow) : (s.modFlow f).pending = s.pending := rfl

@[simp] theorem State.modGen_inReset (g : Fin 16) (f : Generator → Generator) : (s.modGen g f).inReset = s.inReset := rfl
@[simp] theorem State.modGen_osc (g : Fin 16) (f : Generator → Generator) : (s.modGen g f).osc = s.osc := rfl
@[simp] theorem State.modGen_servo (g : Fin 16) (f : Generator → Generator) : (s.modGen g f).servo = s.servo := rfl
@[simp] theorem State.modGen_paths (g : Fin 16) (f : Generator → Generator) : (s.modGen g f).paths = s.paths := rfl
@[simp] theorem State.modGen_classifier (g : Fin 16) (f : Generator → Generator) : (s.modGen g f).classifier = s.classifier := rfl
@[simp] theorem State.modGen_correction (g : Fin 16) (f : Generator → Generator) : (s.modGen g f).correction = s.correction := rfl
@[simp] theorem State.modGen_sources (g : Fin 16) (f : Generator → Generator) : (s.modGen g f).sources = s.sources := rfl
@[simp] theorem State.modGen_gens (g : Fin 16) (f : Generator → Generator) : (s.modGen g f).gens = modifyRow s.gens g f := rfl
@[simp] theorem State.modGen_lines (g : Fin 16) (f : Generator → Generator) : (s.modGen g f).lines = s.lines := rfl
@[simp] theorem State.modGen_flow (g : Fin 16) (f : Generator → Generator) : (s.modGen g f).flow = s.flow := rfl
@[simp] theorem State.modGen_ctl (g : Fin 16) (f : Generator → Generator) : (s.modGen g f).ctl = s.ctl := rfl
@[simp] theorem State.modGen_free (g : Fin 16) (f : Generator → Generator) : (s.modGen g f).free = s.free := rfl
@[simp] theorem State.modGen_pending (g : Fin 16) (f : Generator → Generator) : (s.modGen g f).pending = s.pending := rfl

@[simp] theorem State.modClassifier_inReset (f : Classifier → Classifier) : (s.modClassifier f).inReset = s.inReset := rfl
@[simp] theorem State.modClassifier_osc (f : Classifier → Classifier) : (s.modClassifier f).osc = s.osc := rfl
@[simp] theorem State.modClassifier_servo (f : Classifier → Classifier) : (s.modClassifier f).servo = s.servo := rfl
@[simp] theorem State.modClassifier_paths (f : Classifier → Classifier) : (s.modClassifier f).paths = s.paths := rfl
@[simp] theorem State.modClassifier_classifier (f : Classifier → Classifier) : (s.modClassifier f).classifier = f s.classifier := rfl
@[simp] theorem State.modClassifier_correction (f : Classifier → Classifier) : (s.modClassifier f).correction = s.correction := rfl
@[simp] theorem State.modClassifier_sources (f : Classifier → Classifier) : (s.modClassifier f).sources = s.sources := rfl
@[simp] theorem State.modClassifier_gens (f : Classifier → Classifier) : (s.modClassifier f).gens = s.gens := rfl
@[simp] theorem State.modClassifier_lines (f : Classifier → Classifier) : (s.modClassifier f).lines = s.lines := rfl
@[simp] theorem State.modClassifier_flow (f : Classifier → Classifier) : (s.modClassifier f).flow = s.flow := rfl
@[simp] theorem State.modClassifier_ctl (f : Classifier → Classifier) : (s.modClassifier f).ctl = s.ctl := rfl
@[simp] theorem State.modClassifier_free (f : Classifier → Classifier) : (s.modClassifier f).free = s.free := rfl
@[simp] theorem State.modClassifier_pending (f : Classifier → Classifier) : (s.modClassifier f).pending = s.pending := rfl

@[simp] theorem State.countServo_inReset (f : ServoCounters → ServoCounters) : (s.countServo f).inReset = s.inReset := rfl
@[simp] theorem State.countServo_osc (f : ServoCounters → ServoCounters) : (s.countServo f).osc = s.osc := rfl
@[simp] theorem State.countServo_servo (f : ServoCounters → ServoCounters) :
    (s.countServo f).servo = { s.servo with count := f s.servo.count } := rfl
@[simp] theorem State.countServo_paths (f : ServoCounters → ServoCounters) : (s.countServo f).paths = s.paths := rfl
@[simp] theorem State.countServo_classifier (f : ServoCounters → ServoCounters) : (s.countServo f).classifier = s.classifier := rfl
@[simp] theorem State.countServo_correction (f : ServoCounters → ServoCounters) : (s.countServo f).correction = s.correction := rfl
@[simp] theorem State.countServo_sources (f : ServoCounters → ServoCounters) : (s.countServo f).sources = s.sources := rfl
@[simp] theorem State.countServo_gens (f : ServoCounters → ServoCounters) : (s.countServo f).gens = s.gens := rfl
@[simp] theorem State.countServo_lines (f : ServoCounters → ServoCounters) : (s.countServo f).lines = s.lines := rfl
@[simp] theorem State.countServo_flow (f : ServoCounters → ServoCounters) : (s.countServo f).flow = s.flow := rfl
@[simp] theorem State.countServo_ctl (f : ServoCounters → ServoCounters) : (s.countServo f).ctl = s.ctl := rfl
@[simp] theorem State.countServo_free (f : ServoCounters → ServoCounters) : (s.countServo f).free = s.free := rfl
@[simp] theorem State.countServo_pending (f : ServoCounters → ServoCounters) : (s.countServo f).pending = s.pending := rfl

@[simp] theorem State.countMeasure_inReset (p : Path) (f : MeasureCounters → MeasureCounters) : (s.countMeasure p f).inReset = s.inReset := rfl
@[simp] theorem State.countMeasure_osc (p : Path) (f : MeasureCounters → MeasureCounters) : (s.countMeasure p f).osc = s.osc := rfl
@[simp] theorem State.countMeasure_servo (p : Path) (f : MeasureCounters → MeasureCounters) : (s.countMeasure p f).servo = s.servo := rfl
@[simp] theorem State.countMeasure_paths (p : Path) (f : MeasureCounters → MeasureCounters) :
    (s.countMeasure p f).paths = s.paths.set p { s.paths.get p with measure := { (s.paths.get p).measure with count := f (s.paths.get p).measure.count } } := rfl
@[simp] theorem State.countMeasure_classifier (p : Path) (f : MeasureCounters → MeasureCounters) : (s.countMeasure p f).classifier = s.classifier := rfl
@[simp] theorem State.countMeasure_correction (p : Path) (f : MeasureCounters → MeasureCounters) : (s.countMeasure p f).correction = s.correction := rfl
@[simp] theorem State.countMeasure_sources (p : Path) (f : MeasureCounters → MeasureCounters) : (s.countMeasure p f).sources = s.sources := rfl
@[simp] theorem State.countMeasure_gens (p : Path) (f : MeasureCounters → MeasureCounters) : (s.countMeasure p f).gens = s.gens := rfl
@[simp] theorem State.countMeasure_lines (p : Path) (f : MeasureCounters → MeasureCounters) : (s.countMeasure p f).lines = s.lines := rfl
@[simp] theorem State.countMeasure_flow (p : Path) (f : MeasureCounters → MeasureCounters) : (s.countMeasure p f).flow = s.flow := rfl
@[simp] theorem State.countMeasure_ctl (p : Path) (f : MeasureCounters → MeasureCounters) : (s.countMeasure p f).ctl = s.ctl := rfl
@[simp] theorem State.countMeasure_free (p : Path) (f : MeasureCounters → MeasureCounters) : (s.countMeasure p f).free = s.free := rfl
@[simp] theorem State.countMeasure_pending (p : Path) (f : MeasureCounters → MeasureCounters) : (s.countMeasure p f).pending = s.pending := rfl

@[simp] theorem State.countSources_inReset (p : Path) (f : SourceCounters → SourceCounters) : (s.countSources p f).inReset = s.inReset := rfl
@[simp] theorem State.countSources_osc (p : Path) (f : SourceCounters → SourceCounters) : (s.countSources p f).osc = s.osc := rfl
@[simp] theorem State.countSources_servo (p : Path) (f : SourceCounters → SourceCounters) : (s.countSources p f).servo = s.servo := rfl
@[simp] theorem State.countSources_paths (p : Path) (f : SourceCounters → SourceCounters) :
    (s.countSources p f).paths = s.paths.set p { s.paths.get p with sources := f (s.paths.get p).sources } := rfl
@[simp] theorem State.countSources_classifier (p : Path) (f : SourceCounters → SourceCounters) : (s.countSources p f).classifier = s.classifier := rfl
@[simp] theorem State.countSources_correction (p : Path) (f : SourceCounters → SourceCounters) : (s.countSources p f).correction = s.correction := rfl
@[simp] theorem State.countSources_sources (p : Path) (f : SourceCounters → SourceCounters) : (s.countSources p f).sources = s.sources := rfl
@[simp] theorem State.countSources_gens (p : Path) (f : SourceCounters → SourceCounters) : (s.countSources p f).gens = s.gens := rfl
@[simp] theorem State.countSources_lines (p : Path) (f : SourceCounters → SourceCounters) : (s.countSources p f).lines = s.lines := rfl
@[simp] theorem State.countSources_flow (p : Path) (f : SourceCounters → SourceCounters) : (s.countSources p f).flow = s.flow := rfl
@[simp] theorem State.countSources_ctl (p : Path) (f : SourceCounters → SourceCounters) : (s.countSources p f).ctl = s.ctl := rfl
@[simp] theorem State.countSources_free (p : Path) (f : SourceCounters → SourceCounters) : (s.countSources p f).free = s.free := rfl
@[simp] theorem State.countSources_pending (p : Path) (f : SourceCounters → SourceCounters) : (s.countSources p f).pending = s.pending := rfl

@[simp] theorem State.countCorrection_inReset (p : Path) (f : CorrectionCounters → CorrectionCounters) : (s.countCorrection p f).inReset = s.inReset := rfl
@[simp] theorem State.countCorrection_osc (p : Path) (f : CorrectionCounters → CorrectionCounters) : (s.countCorrection p f).osc = s.osc := rfl
@[simp] theorem State.countCorrection_servo (p : Path) (f : CorrectionCounters → CorrectionCounters) : (s.countCorrection p f).servo = s.servo := rfl
@[simp] theorem State.countCorrection_paths (p : Path) (f : CorrectionCounters → CorrectionCounters) :
    (s.countCorrection p f).paths = s.paths.set p { s.paths.get p with correction := f (s.paths.get p).correction } := rfl
@[simp] theorem State.countCorrection_classifier (p : Path) (f : CorrectionCounters → CorrectionCounters) : (s.countCorrection p f).classifier = s.classifier := rfl
@[simp] theorem State.countCorrection_correction (p : Path) (f : CorrectionCounters → CorrectionCounters) : (s.countCorrection p f).correction = s.correction := rfl
@[simp] theorem State.countCorrection_sources (p : Path) (f : CorrectionCounters → CorrectionCounters) : (s.countCorrection p f).sources = s.sources := rfl
@[simp] theorem State.countCorrection_gens (p : Path) (f : CorrectionCounters → CorrectionCounters) : (s.countCorrection p f).gens = s.gens := rfl
@[simp] theorem State.countCorrection_lines (p : Path) (f : CorrectionCounters → CorrectionCounters) : (s.countCorrection p f).lines = s.lines := rfl
@[simp] theorem State.countCorrection_flow (p : Path) (f : CorrectionCounters → CorrectionCounters) : (s.countCorrection p f).flow = s.flow := rfl
@[simp] theorem State.countCorrection_ctl (p : Path) (f : CorrectionCounters → CorrectionCounters) : (s.countCorrection p f).ctl = s.ctl := rfl
@[simp] theorem State.countCorrection_free (p : Path) (f : CorrectionCounters → CorrectionCounters) : (s.countCorrection p f).free = s.free := rfl
@[simp] theorem State.countCorrection_pending (p : Path) (f : CorrectionCounters → CorrectionCounters) : (s.countCorrection p f).pending = s.pending := rfl

@[simp] theorem State.countClassified_inReset (p : Path) (f : ClassifierCounters → ClassifierCounters) : (s.countClassified p f).inReset = s.inReset := rfl
@[simp] theorem State.countClassified_osc (p : Path) (f : ClassifierCounters → ClassifierCounters) : (s.countClassified p f).osc = s.osc := rfl
@[simp] theorem State.countClassified_servo (p : Path) (f : ClassifierCounters → ClassifierCounters) : (s.countClassified p f).servo = s.servo := rfl
@[simp] theorem State.countClassified_paths (p : Path) (f : ClassifierCounters → ClassifierCounters) :
    (s.countClassified p f).paths = s.paths.set p { s.paths.get p with classified := f (s.paths.get p).classified } := rfl
@[simp] theorem State.countClassified_classifier (p : Path) (f : ClassifierCounters → ClassifierCounters) : (s.countClassified p f).classifier = s.classifier := rfl
@[simp] theorem State.countClassified_correction (p : Path) (f : ClassifierCounters → ClassifierCounters) : (s.countClassified p f).correction = s.correction := rfl
@[simp] theorem State.countClassified_sources (p : Path) (f : ClassifierCounters → ClassifierCounters) : (s.countClassified p f).sources = s.sources := rfl
@[simp] theorem State.countClassified_gens (p : Path) (f : ClassifierCounters → ClassifierCounters) : (s.countClassified p f).gens = s.gens := rfl
@[simp] theorem State.countClassified_lines (p : Path) (f : ClassifierCounters → ClassifierCounters) : (s.countClassified p f).lines = s.lines := rfl
@[simp] theorem State.countClassified_flow (p : Path) (f : ClassifierCounters → ClassifierCounters) : (s.countClassified p f).flow = s.flow := rfl
@[simp] theorem State.countClassified_ctl (p : Path) (f : ClassifierCounters → ClassifierCounters) : (s.countClassified p f).ctl = s.ctl := rfl
@[simp] theorem State.countClassified_free (p : Path) (f : ClassifierCounters → ClassifierCounters) : (s.countClassified p f).free = s.free := rfl
@[simp] theorem State.countClassified_pending (p : Path) (f : ClassifierCounters → ClassifierCounters) : (s.countClassified p f).pending = s.pending := rfl

@[simp] theorem State.modInbox_inReset (p : Path) (f : Inbox → Inbox) : (s.modInbox p f).inReset = s.inReset := rfl
@[simp] theorem State.modInbox_osc (p : Path) (f : Inbox → Inbox) : (s.modInbox p f).osc = s.osc := rfl
@[simp] theorem State.modInbox_servo (p : Path) (f : Inbox → Inbox) : (s.modInbox p f).servo = s.servo := rfl
@[simp] theorem State.modInbox_paths (p : Path) (f : Inbox → Inbox) :
    (s.modInbox p f).paths = s.paths.set p { s.paths.get p with inbox := f (s.paths.get p).inbox } := rfl
@[simp] theorem State.modInbox_classifier (p : Path) (f : Inbox → Inbox) : (s.modInbox p f).classifier = s.classifier := rfl
@[simp] theorem State.modInbox_correction (p : Path) (f : Inbox → Inbox) : (s.modInbox p f).correction = s.correction := rfl
@[simp] theorem State.modInbox_sources (p : Path) (f : Inbox → Inbox) : (s.modInbox p f).sources = s.sources := rfl
@[simp] theorem State.modInbox_gens (p : Path) (f : Inbox → Inbox) : (s.modInbox p f).gens = s.gens := rfl
@[simp] theorem State.modInbox_lines (p : Path) (f : Inbox → Inbox) : (s.modInbox p f).lines = s.lines := rfl
@[simp] theorem State.modInbox_flow (p : Path) (f : Inbox → Inbox) : (s.modInbox p f).flow = s.flow := rfl
@[simp] theorem State.modInbox_ctl (p : Path) (f : Inbox → Inbox) : (s.modInbox p f).ctl = s.ctl := rfl
@[simp] theorem State.modInbox_free (p : Path) (f : Inbox → Inbox) : (s.modInbox p f).free = s.free := rfl
@[simp] theorem State.modInbox_pending (p : Path) (f : Inbox → Inbox) : (s.modInbox p f).pending = s.pending := rfl

@[simp] theorem State.modEntry_inReset (i : Fin 16) (f : SourceEntry → SourceEntry) : (s.modEntry i f).inReset = s.inReset := rfl
@[simp] theorem State.modEntry_osc (i : Fin 16) (f : SourceEntry → SourceEntry) : (s.modEntry i f).osc = s.osc := rfl
@[simp] theorem State.modEntry_servo (i : Fin 16) (f : SourceEntry → SourceEntry) : (s.modEntry i f).servo = s.servo := rfl
@[simp] theorem State.modEntry_paths (i : Fin 16) (f : SourceEntry → SourceEntry) : (s.modEntry i f).paths = s.paths := rfl
@[simp] theorem State.modEntry_classifier (i : Fin 16) (f : SourceEntry → SourceEntry) : (s.modEntry i f).classifier = s.classifier := rfl
@[simp] theorem State.modEntry_correction (i : Fin 16) (f : SourceEntry → SourceEntry) : (s.modEntry i f).correction = s.correction := rfl
@[simp] theorem State.modEntry_sources (i : Fin 16) (f : SourceEntry → SourceEntry) :
    (s.modEntry i f).sources = { s.sources with table := modifyEntry s.sources.table i f } := rfl
@[simp] theorem State.modEntry_gens (i : Fin 16) (f : SourceEntry → SourceEntry) : (s.modEntry i f).gens = s.gens := rfl
@[simp] theorem State.modEntry_lines (i : Fin 16) (f : SourceEntry → SourceEntry) : (s.modEntry i f).lines = s.lines := rfl
@[simp] theorem State.modEntry_flow (i : Fin 16) (f : SourceEntry → SourceEntry) : (s.modEntry i f).flow = s.flow := rfl
@[simp] theorem State.modEntry_ctl (i : Fin 16) (f : SourceEntry → SourceEntry) : (s.modEntry i f).ctl = s.ctl := rfl
@[simp] theorem State.modEntry_free (i : Fin 16) (f : SourceEntry → SourceEntry) : (s.modEntry i f).free = s.free := rfl
@[simp] theorem State.modEntry_pending (i : Fin 16) (f : SourceEntry → SourceEntry) : (s.modEntry i f).pending = s.pending := rfl

@[simp] theorem State.modResidence_inReset (f : Vector (Option ResidenceEntry) 32 → Vector (Option ResidenceEntry) 32) : (s.modResidence f).inReset = s.inReset := rfl
@[simp] theorem State.modResidence_osc (f : Vector (Option ResidenceEntry) 32 → Vector (Option ResidenceEntry) 32) : (s.modResidence f).osc = s.osc := rfl
@[simp] theorem State.modResidence_servo (f : Vector (Option ResidenceEntry) 32 → Vector (Option ResidenceEntry) 32) : (s.modResidence f).servo = s.servo := rfl
@[simp] theorem State.modResidence_paths (f : Vector (Option ResidenceEntry) 32 → Vector (Option ResidenceEntry) 32) : (s.modResidence f).paths = s.paths := rfl
@[simp] theorem State.modResidence_classifier (f : Vector (Option ResidenceEntry) 32 → Vector (Option ResidenceEntry) 32) : (s.modResidence f).classifier = s.classifier := rfl
@[simp] theorem State.modResidence_correction (f : Vector (Option ResidenceEntry) 32 → Vector (Option ResidenceEntry) 32) :
    (s.modResidence f).correction = { s.correction with rows := f s.correction.rows } := rfl
@[simp] theorem State.modResidence_sources (f : Vector (Option ResidenceEntry) 32 → Vector (Option ResidenceEntry) 32) : (s.modResidence f).sources = s.sources := rfl
@[simp] theorem State.modResidence_gens (f : Vector (Option ResidenceEntry) 32 → Vector (Option ResidenceEntry) 32) : (s.modResidence f).gens = s.gens := rfl
@[simp] theorem State.modResidence_lines (f : Vector (Option ResidenceEntry) 32 → Vector (Option ResidenceEntry) 32) : (s.modResidence f).lines = s.lines := rfl
@[simp] theorem State.modResidence_flow (f : Vector (Option ResidenceEntry) 32 → Vector (Option ResidenceEntry) 32) : (s.modResidence f).flow = s.flow := rfl
@[simp] theorem State.modResidence_ctl (f : Vector (Option ResidenceEntry) 32 → Vector (Option ResidenceEntry) 32) : (s.modResidence f).ctl = s.ctl := rfl
@[simp] theorem State.modResidence_free (f : Vector (Option ResidenceEntry) 32 → Vector (Option ResidenceEntry) 32) : (s.modResidence f).free = s.free := rfl
@[simp] theorem State.modResidence_pending (f : Vector (Option ResidenceEntry) 32 → Vector (Option ResidenceEntry) 32) : (s.modResidence f).pending = s.pending := rfl

@[simp] theorem State.withBus_inReset (x : Bus) : (s.withBus x).inReset = s.inReset := rfl
@[simp] theorem State.withBus_osc (x : Bus) : (s.withBus x).osc = s.osc := rfl
@[simp] theorem State.withBus_servo (x : Bus) : (s.withBus x).servo = s.servo := rfl
@[simp] theorem State.withBus_paths (x : Bus) : (s.withBus x).paths = x.2 := rfl
@[simp] theorem State.withBus_classifier (x : Bus) : (s.withBus x).classifier = s.classifier := rfl
@[simp] theorem State.withBus_correction (x : Bus) : (s.withBus x).correction = s.correction := rfl
@[simp] theorem State.withBus_sources (x : Bus) : (s.withBus x).sources = s.sources := rfl
@[simp] theorem State.withBus_gens (x : Bus) : (s.withBus x).gens = s.gens := rfl
@[simp] theorem State.withBus_lines (x : Bus) : (s.withBus x).lines = s.lines := rfl
@[simp] theorem State.withBus_flow (x : Bus) : (s.withBus x).flow = s.flow := rfl
@[simp] theorem State.withBus_ctl (x : Bus) : (s.withBus x).ctl = x.1 := rfl
@[simp] theorem State.withBus_free (x : Bus) : (s.withBus x).free = s.free := rfl
@[simp] theorem State.withBus_pending (x : Bus) : (s.withBus x).pending = s.pending := rfl

end Sys2Proof.Machine
end

