-- ==== Sys2Proof/Laws/Frames.lean ====
section
/-! SUPPORT. What each operation on the state leaves unchanged, by field. As simp lemmas they carry a claim about one
part of the state past every operation that does not touch that part. -/

namespace Sys2Proof.Machine

variable (s : State)

/-- A field that no step of a fold touches is untouched by the fold. -/
theorem foldl_field {α β : Type} (g : State → β) (f : State → α → State) (h : ∀ t a, g (f t a) = g t) :
    ∀ (l : List α) (t : State), g (l.foldl f t) = g t
  | [], _ => rfl
  | a :: l, t => by rw [List.foldl_cons, foldl_field g f h l, h]

@[simp] theorem State.raise_frame (e : Event) :
    (s.raise e).inReset = s.inReset ∧ (s.raise e).osc = s.osc ∧ (s.raise e).servo = s.servo ∧
    (s.raise e).classifier = s.classifier ∧ (s.raise e).correction = s.correction ∧
    (s.raise e).sources = s.sources ∧ (s.raise e).gens = s.gens ∧ (s.raise e).lines = s.lines ∧
    (s.raise e).flow = s.flow ∧ (s.raise e).free = s.free ∧ (s.raise e).pending = s.pending := by
  unfold State.raise
  try dsimp only
  simp

@[simp] theorem State.raiseIf_frame (b : Bool) (e : Event) :
    (s.raiseIf b e).inReset = s.inReset ∧ (s.raiseIf b e).osc = s.osc ∧ (s.raiseIf b e).servo = s.servo ∧
    (s.raiseIf b e).classifier = s.classifier ∧ (s.raiseIf b e).correction = s.correction ∧
    (s.raiseIf b e).sources = s.sources ∧ (s.raiseIf b e).gens = s.gens ∧ (s.raiseIf b e).lines = s.lines ∧
    (s.raiseIf b e).flow = s.flow ∧ (s.raiseIf b e).free = s.free ∧ (s.raiseIf b e).pending = s.pending := by
  unfold State.raiseIf
  try dsimp only
  (repeat' split) <;> simp

@[simp] theorem State.endHold_frame :
    s.endHold.inReset = s.inReset ∧ s.endHold.osc = s.osc ∧ s.endHold.servo = s.servo ∧
    s.endHold.classifier = s.classifier ∧ s.endHold.correction = s.correction ∧ s.endHold.sources = s.sources ∧
    s.endHold.gens = s.gens ∧ s.endHold.lines = s.lines ∧ s.endHold.flow = s.flow ∧ s.endHold.free = s.free ∧
    s.endHold.pending = s.pending := by
  unfold State.endHold
  try dsimp only
  (repeat' split) <;> simp

@[simp] theorem State.offerReply_frame (p : Path) (f : List Byte) :
    (s.offerReply p f).inReset = s.inReset ∧ (s.offerReply p f).osc = s.osc ∧ (s.offerReply p f).servo = s.servo ∧
    (s.offerReply p f).classifier = s.classifier ∧ (s.offerReply p f).correction = s.correction ∧
    (s.offerReply p f).sources = s.sources ∧ (s.offerReply p f).gens = s.gens ∧
    (s.offerReply p f).lines = s.lines ∧ (s.offerReply p f).flow = s.flow ∧ (s.offerReply p f).free = s.free ∧
    (s.offerReply p f).pending = s.pending := by
  unfold State.offerReply
  try dsimp only
  simp

@[simp] theorem State.endHoldoff_frame :
    s.endHoldoff.inReset = s.inReset ∧ s.endHoldoff.osc = s.osc ∧ s.endHoldoff.servo = s.servo ∧
    s.endHoldoff.classifier = s.classifier ∧ s.endHoldoff.correction = s.correction ∧
    s.endHoldoff.sources = s.sources ∧ s.endHoldoff.gens = s.gens ∧ s.endHoldoff.lines = s.lines ∧
    s.endHoldoff.flow = s.flow ∧ s.endHoldoff.free = s.free ∧ s.endHoldoff.pending = s.pending := by
  unfold State.endHoldoff
  try dsimp only
  (repeat' split) <;> simp

@[simp] theorem State.recordResidence_frame (p : Path) (m : Scx) (r : Int) :
    (s.recordResidence p m r).inReset = s.inReset ∧ (s.recordResidence p m r).osc = s.osc ∧
    (s.recordResidence p m r).servo = s.servo ∧ (s.recordResidence p m r).classifier = s.classifier ∧
    (s.recordResidence p m r).sources = s.sources ∧ (s.recordResidence p m r).gens = s.gens ∧
    (s.recordResidence p m r).lines = s.lines ∧ (s.recordResidence p m r).flow = s.flow ∧
    (s.recordResidence p m r).free = s.free ∧ (s.recordResidence p m r).pending = s.pending := by
  unfold State.recordResidence
  try dsimp only
  (repeat' split) <;> simp

@[simp] theorem State.sendDown_frame (p : Path) (b : List Byte) :
    (s.sendDown p b).inReset = s.inReset ∧ (s.sendDown p b).osc = s.osc ∧ (s.sendDown p b).servo = s.servo ∧
    (s.sendDown p b).classifier = s.classifier ∧ (s.sendDown p b).correction = s.correction ∧
    (s.sendDown p b).sources = s.sources ∧ (s.sendDown p b).gens = s.gens ∧ (s.sendDown p b).lines = s.lines ∧
    (s.sendDown p b).flow = s.flow ∧ (s.sendDown p b).ctl = s.ctl ∧ (s.sendDown p b).free = s.free ∧
    (s.sendDown p b).pending = s.pending := by
  unfold State.sendDown
  try dsimp only
  simp

@[simp] theorem State.sendAmended_frame (p : Path) (b : List Byte) (m : Scx) (a : Int) (f : CorrectionCounters → CorrectionCounters) :
    (s.sendAmended p b m a f).inReset = s.inReset ∧ (s.sendAmended p b m a f).osc = s.osc ∧
    (s.sendAmended p b m a f).servo = s.servo ∧ (s.sendAmended p b m a f).classifier = s.classifier ∧
    (s.sendAmended p b m a f).correction = s.correction ∧ (s.sendAmended p b m a f).sources = s.sources ∧
    (s.sendAmended p b m a f).gens = s.gens ∧ (s.sendAmended p b m a f).lines = s.lines ∧
    (s.sendAmended p b m a f).flow = s.flow ∧ (s.sendAmended p b m a f).ctl = s.ctl ∧
    (s.sendAmended p b m a f).free = s.free ∧ (s.sendAmended p b m a f).pending = s.pending := by
  unfold State.sendAmended
  try dsimp only
  simp

@[simp] theorem State.beginDown_frame (p : Path) :
    (s.beginDown p).inReset = s.inReset ∧ (s.beginDown p).osc = s.osc ∧ (s.beginDown p).servo = s.servo ∧
    (s.beginDown p).classifier = s.classifier ∧ (s.beginDown p).sources = s.sources ∧
    (s.beginDown p).gens = s.gens ∧ (s.beginDown p).lines = s.lines ∧ (s.beginDown p).flow = s.flow ∧
    (s.beginDown p).free = s.free ∧ (s.beginDown p).pending = s.pending := by
  unfold State.beginDown
  try dsimp only
  (repeat' split) <;> simp

@[simp] theorem State.driveDown_frame (p : Path) :
    (s.driveDown p).inReset = s.inReset ∧ (s.driveDown p).osc = s.osc ∧ (s.driveDown p).servo = s.servo ∧
    (s.driveDown p).classifier = s.classifier ∧ (s.driveDown p).sources = s.sources ∧
    (s.driveDown p).gens = s.gens ∧ (s.driveDown p).lines = s.lines ∧ (s.driveDown p).flow = s.flow ∧
    (s.driveDown p).free = s.free ∧ (s.driveDown p).pending = s.pending := by
  unfold State.driveDown
  try dsimp only
  (repeat' split) <;> simp

@[simp] theorem State.decide_frame (p : Path) :
    (s.decide p).inReset = s.inReset ∧ (s.decide p).osc = s.osc ∧ (s.decide p).servo = s.servo ∧
    (s.decide p).classifier = s.classifier ∧ (s.decide p).correction = s.correction ∧
    (s.decide p).sources = s.sources ∧ (s.decide p).gens = s.gens ∧ (s.decide p).lines = s.lines ∧
    (s.decide p).flow = s.flow ∧ (s.decide p).ctl = s.ctl ∧ (s.decide p).free = s.free ∧
    (s.decide p).pending = s.pending := by
  unfold State.decide
  try dsimp only
  simp

@[simp] theorem State.expireResidence_frame (i : Fin 32) :
    (s.expireResidence i).inReset = s.inReset ∧ (s.expireResidence i).osc = s.osc ∧
    (s.expireResidence i).servo = s.servo ∧ (s.expireResidence i).classifier = s.classifier ∧
    (s.expireResidence i).sources = s.sources ∧ (s.expireResidence i).gens = s.gens ∧
    (s.expireResidence i).lines = s.lines ∧ (s.expireResidence i).flow = s.flow ∧
    (s.expireResidence i).free = s.free ∧ (s.expireResidence i).pending = s.pending := by
  unfold State.expireResidence
  try dsimp only
  (repeat' split) <;> simp

@[simp] theorem State.removeResidences_frame (p : Path) :
    (s.removeResidences p).inReset = s.inReset ∧ (s.removeResidences p).osc = s.osc ∧
    (s.removeResidences p).servo = s.servo ∧ (s.removeResidences p).classifier = s.classifier ∧
    (s.removeResidences p).sources = s.sources ∧ (s.removeResidences p).gens = s.gens ∧
    (s.removeResidences p).lines = s.lines ∧ (s.removeResidences p).flow = s.flow ∧
    (s.removeResidences p).ctl = s.ctl ∧ (s.removeResidences p).free = s.free ∧
    (s.removeResidences p).pending = s.pending := by
  unfold State.removeResidences
  try dsimp only
  simp

@[simp] theorem State.setLifetime_frame (v : Nat) :
    (s.setLifetime v).inReset = s.inReset ∧ (s.setLifetime v).osc = s.osc ∧ (s.setLifetime v).servo = s.servo ∧
    (s.setLifetime v).classifier = s.classifier ∧ (s.setLifetime v).sources = s.sources ∧
    (s.setLifetime v).gens = s.gens ∧ (s.setLifetime v).lines = s.lines ∧ (s.setLifetime v).flow = s.flow ∧
    (s.setLifetime v).free = s.free ∧ (s.setLifetime v).pending = s.pending := by
  unfold State.setLifetime
  refine ⟨?_, ?_, ?_, ?_, ?_, ?_, ?_, ?_, ?_, ?_⟩ <;> exact (foldl_field _ _ (fun t i => by simp) _ _).trans (by simp)

@[simp] theorem State.addStepSum_frame (m : Int) :
    (s.addStepSum m).inReset = s.inReset ∧ (s.addStepSum m).osc = s.osc ∧ (s.addStepSum m).servo = s.servo ∧
    (s.addStepSum m).paths = s.paths ∧ (s.addStepSum m).classifier = s.classifier ∧
    (s.addStepSum m).sources = s.sources ∧ (s.addStepSum m).gens = s.gens ∧ (s.addStepSum m).lines = s.lines ∧
    (s.addStepSum m).flow = s.flow ∧ (s.addStepSum m).ctl = s.ctl ∧ (s.addStepSum m).pending = s.pending := by
  unfold State.addStepSum
  try dsimp only
  (repeat' split) <;> simp

@[simp] theorem State.tellLabels_frame :
    s.tellLabels.inReset = s.inReset ∧ s.tellLabels.osc = s.osc ∧ s.tellLabels.servo = s.servo ∧
    s.tellLabels.paths = s.paths ∧ s.tellLabels.classifier = s.classifier ∧
    s.tellLabels.correction = s.correction ∧ s.tellLabels.sources = s.sources ∧ s.tellLabels.lines = s.lines ∧
    s.tellLabels.flow = s.flow ∧ s.tellLabels.ctl = s.ctl ∧ s.tellLabels.free = s.free ∧
    s.tellLabels.pending = s.pending := by
  simp [State.tellLabels]

@[simp] theorem State.jamCommand_frame (m : BitVec 16) :
    (s.jamCommand m).inReset = s.inReset ∧ (s.jamCommand m).osc = s.osc ∧ (s.jamCommand m).servo = s.servo ∧
    (s.jamCommand m).paths = s.paths ∧ (s.jamCommand m).classifier = s.classifier ∧
    (s.jamCommand m).correction = s.correction ∧ (s.jamCommand m).sources = s.sources ∧
    (s.jamCommand m).lines = s.lines ∧ (s.jamCommand m).flow = s.flow ∧ (s.jamCommand m).ctl = s.ctl ∧
    (s.jamCommand m).free = s.free ∧ (s.jamCommand m).pending = s.pending := by
  simp [State.jamCommand]

@[simp] theorem State.setLines_frame (m : BitVec 8) (v : Level) :
    (s.setLines m v).inReset = s.inReset ∧ (s.setLines m v).osc = s.osc ∧ (s.setLines m v).servo = s.servo ∧
    (s.setLines m v).paths = s.paths ∧ (s.setLines m v).classifier = s.classifier ∧
    (s.setLines m v).correction = s.correction ∧ (s.setLines m v).sources = s.sources ∧
    (s.setLines m v).gens = s.gens ∧ (s.setLines m v).flow = s.flow ∧ (s.setLines m v).ctl = s.ctl ∧
    (s.setLines m v).free = s.free ∧ (s.setLines m v).pending = s.pending := by
  unfold State.setLines
  try dsimp only
  simp

@[simp] theorem State.endPulse_frame (i : Fin 8) :
    (s.endPulse i).inReset = s.inReset ∧ (s.endPulse i).osc = s.osc ∧ (s.endPulse i).servo = s.servo ∧
    (s.endPulse i).paths = s.paths ∧ (s.endPulse i).classifier = s.classifier ∧
    (s.endPulse i).correction = s.correction ∧ (s.endPulse i).sources = s.sources ∧ (s.endPulse i).gens = s.gens ∧
    (s.endPulse i).flow = s.flow ∧ (s.endPulse i).ctl = s.ctl ∧ (s.endPulse i).free = s.free ∧
    (s.endPulse i).pending = s.pending := by
  unfold State.endPulse
  try dsimp only
  simp

@[simp] theorem State.offerCapture_frame (c : Capture) :
    (s.offerCapture c).inReset = s.inReset ∧ (s.offerCapture c).osc = s.osc ∧ (s.offerCapture c).servo = s.servo ∧
    (s.offerCapture c).classifier = s.classifier ∧ (s.offerCapture c).correction = s.correction ∧
    (s.offerCapture c).sources = s.sources ∧ (s.offerCapture c).gens = s.gens ∧ (s.offerCapture c).flow = s.flow ∧
    (s.offerCapture c).free = s.free ∧ (s.offerCapture c).pending = s.pending := by
  unfold State.offerCapture
  try dsimp only
  (repeat' split) <;> simp

@[simp] theorem State.setInput_frame (i : Fin 4) (e : EdgeDir) :
    (s.setInput i e).inReset = s.inReset ∧ (s.setInput i e).osc = s.osc ∧ (s.setInput i e).servo = s.servo ∧
    (s.setInput i e).paths = s.paths ∧ (s.setInput i e).classifier = s.classifier ∧
    (s.setInput i e).correction = s.correction ∧ (s.setInput i e).sources = s.sources ∧
    (s.setInput i e).gens = s.gens ∧ (s.setInput i e).flow = s.flow ∧ (s.setInput i e).ctl = s.ctl ∧
    (s.setInput i e).free = s.free ∧ (s.setInput i e).pending = s.pending := by
  unfold State.setInput
  try dsimp only
  simp

@[simp] theorem State.inputTransition_frame (i : Fin 4) (e : EdgeDir) :
    (s.inputTransition i e).inReset = s.inReset ∧ (s.inputTransition i e).osc = s.osc ∧
    (s.inputTransition i e).servo = s.servo ∧ (s.inputTransition i e).classifier = s.classifier ∧
    (s.inputTransition i e).correction = s.correction ∧ (s.inputTransition i e).sources = s.sources ∧
    (s.inputTransition i e).gens = s.gens ∧ (s.inputTransition i e).flow = s.flow ∧
    (s.inputTransition i e).free = s.free ∧ (s.inputTransition i e).pending = s.pending := by
  unfold State.inputTransition
  try dsimp only
  (repeat' split) <;> simp

@[simp] theorem State.emitEdge_frame (g : Fin 16) :
    (s.emitEdge g).inReset = s.inReset ∧ (s.emitEdge g).osc = s.osc ∧ (s.emitEdge g).servo = s.servo ∧
    (s.emitEdge g).classifier = s.classifier ∧ (s.emitEdge g).correction = s.correction ∧
    (s.emitEdge g).sources = s.sources ∧ (s.emitEdge g).flow = s.flow ∧ (s.emitEdge g).free = s.free ∧
    (s.emitEdge g).pending = s.pending := by
  unfold State.emitEdge
  try dsimp only
  (repeat' split) <;> simp

@[simp] theorem State.edgeReached_frame (g : Fin 16) :
    (s.edgeReached g).inReset = s.inReset ∧ (s.edgeReached g).osc = s.osc ∧ (s.edgeReached g).servo = s.servo ∧
    (s.edgeReached g).classifier = s.classifier ∧ (s.edgeReached g).correction = s.correction ∧
    (s.edgeReached g).sources = s.sources ∧ (s.edgeReached g).flow = s.flow ∧ (s.edgeReached g).free = s.free ∧
    (s.edgeReached g).pending = s.pending := by
  unfold State.edgeReached
  try dsimp only
  (repeat' split) <;> simp

@[simp] theorem State.emitDue_frame (c : GenConfig) (g : Fin 16) :
    (s.emitDue c g).inReset = s.inReset ∧ (s.emitDue c g).osc = s.osc ∧ (s.emitDue c g).servo = s.servo ∧
    (s.emitDue c g).classifier = s.classifier ∧ (s.emitDue c g).correction = s.correction ∧
    (s.emitDue c g).sources = s.sources ∧ (s.emitDue c g).flow = s.flow ∧ (s.emitDue c g).free = s.free ∧
    (s.emitDue c g).pending = s.pending := by
  unfold State.emitDue
  try dsimp only
  (repeat' split) <;> simp

@[simp] theorem State.emitStanding_frame (t : TimeValue) :
    (s.emitStanding t).inReset = s.inReset ∧ (s.emitStanding t).osc = s.osc ∧ (s.emitStanding t).servo = s.servo ∧
    (s.emitStanding t).classifier = s.classifier ∧ (s.emitStanding t).correction = s.correction ∧
    (s.emitStanding t).sources = s.sources ∧ (s.emitStanding t).flow = s.flow ∧ (s.emitStanding t).free = s.free ∧
    (s.emitStanding t).pending = s.pending := by
  unfold State.emitStanding
  split
  · refine ⟨?_, ?_, ?_, ?_, ?_, ?_, ?_, ?_, ?_⟩ <;> exact foldl_field _ _ (fun t i => by split <;> simp) _ _
  · simp

@[simp] theorem State.realignGen_frame (c : RealignCause) (g : Fin 16) :
    (s.realignGen c g).inReset = s.inReset ∧ (s.realignGen c g).osc = s.osc ∧ (s.realignGen c g).servo = s.servo ∧
    (s.realignGen c g).classifier = s.classifier ∧ (s.realignGen c g).correction = s.correction ∧
    (s.realignGen c g).sources = s.sources ∧ (s.realignGen c g).flow = s.flow ∧ (s.realignGen c g).free = s.free ∧
    (s.realignGen c g).pending = s.pending := by
  unfold State.realignGen
  try dsimp only
  (repeat' split) <;> simp

@[simp] theorem State.realignAll_frame (c : RealignCause) :
    (s.realignAll c).inReset = s.inReset ∧ (s.realignAll c).osc = s.osc ∧ (s.realignAll c).servo = s.servo ∧
    (s.realignAll c).classifier = s.classifier ∧ (s.realignAll c).correction = s.correction ∧
    (s.realignAll c).sources = s.sources ∧ (s.realignAll c).flow = s.flow ∧ (s.realignAll c).free = s.free ∧
    (s.realignAll c).pending = s.pending := by
  unfold State.realignAll
  refine ⟨?_, ?_, ?_, ?_, ?_, ?_, ?_, ?_, ?_⟩ <;> exact foldl_field _ _ (fun t i => by simp) _ _

@[simp] theorem State.realignMask_frame (m : BitVec 16) :
    (s.realignMask m).inReset = s.inReset ∧ (s.realignMask m).osc = s.osc ∧ (s.realignMask m).servo = s.servo ∧
    (s.realignMask m).classifier = s.classifier ∧ (s.realignMask m).correction = s.correction ∧
    (s.realignMask m).sources = s.sources ∧ (s.realignMask m).flow = s.flow ∧ (s.realignMask m).free = s.free ∧
    (s.realignMask m).pending = s.pending := by
  unfold State.realignMask
  refine ⟨?_, ?_, ?_, ?_, ?_, ?_, ?_, ?_, ?_⟩ <;> refine foldl_field _ _ (fun t i => ?_) _ _ <;> split <;> simp

@[simp] theorem State.storeCadence_frame (g : Fin 16) (c : GenConfig) :
    (s.storeCadence g c).inReset = s.inReset ∧ (s.storeCadence g c).osc = s.osc ∧
    (s.storeCadence g c).servo = s.servo ∧ (s.storeCadence g c).classifier = s.classifier ∧
    (s.storeCadence g c).correction = s.correction ∧ (s.storeCadence g c).sources = s.sources ∧
    (s.storeCadence g c).flow = s.flow ∧ (s.storeCadence g c).free = s.free ∧
    (s.storeCadence g c).pending = s.pending := by
  unfold State.storeCadence
  try dsimp only
  (repeat' split) <;> simp

@[simp] theorem State.changeServo_frame (f : Servo → Servo) :
    (s.changeServo f).inReset = s.inReset ∧ (s.changeServo f).osc = s.osc ∧
    (s.changeServo f).classifier = s.classifier ∧ (s.changeServo f).correction = s.correction ∧
    (s.changeServo f).sources = s.sources ∧ (s.changeServo f).gens = s.gens ∧ (s.changeServo f).lines = s.lines ∧
    (s.changeServo f).flow = s.flow ∧ (s.changeServo f).free = s.free ∧ (s.changeServo f).pending = s.pending := by
  unfold State.changeServo
  try dsimp only
  simp

@[simp] theorem State.measurementStep_frame :
    s.measurementStep.inReset = s.inReset ∧ s.measurementStep.osc = s.osc ∧ s.measurementStep.servo = s.servo ∧
    s.measurementStep.classifier = s.classifier ∧ s.measurementStep.correction = s.correction ∧
    s.measurementStep.gens = s.gens ∧ s.measurementStep.lines = s.lines ∧ s.measurementStep.flow = s.flow ∧
    s.measurementStep.ctl = s.ctl ∧ s.measurementStep.free = s.free ∧ s.measurementStep.pending = s.pending := by
  simp [State.measurementStep]

@[simp] theorem State.moveTime_frame (c : RealignCause) (t : TimeValue) :
    (s.moveTime c t).inReset = s.inReset ∧ (s.moveTime c t).osc = s.osc ∧
    (s.moveTime c t).classifier = s.classifier ∧ (s.moveTime c t).flow = s.flow ∧
    (s.moveTime c t).pending = s.pending := by
  unfold State.moveTime
  have h := State.emitStanding_frame (s := s) t
  revert h
  generalize s.emitStanding t = u
  intro h
  simp [h]

@[simp] theorem State.servoStep_frame (e : Int) :
    (s.servoStep e).inReset = s.inReset ∧ (s.servoStep e).osc = s.osc ∧
    (s.servoStep e).classifier = s.classifier ∧ (s.servoStep e).flow = s.flow ∧
    (s.servoStep e).pending = s.pending := by
  unfold State.servoStep
  try dsimp only
  simp

@[simp] theorem State.discipline_frame (e : Int) :
    (s.discipline e).inReset = s.inReset ∧ (s.discipline e).osc = s.osc ∧
    (s.discipline e).classifier = s.classifier ∧ (s.discipline e).correction = s.correction ∧
    (s.discipline e).sources = s.sources ∧ (s.discipline e).gens = s.gens ∧ (s.discipline e).lines = s.lines ∧
    (s.discipline e).flow = s.flow ∧ (s.discipline e).free = s.free ∧ (s.discipline e).pending = s.pending := by
  unfold State.discipline
  try dsimp only
  simp

@[simp] theorem State.stepTest_frame (e : Int) :
    (s.stepTest e).inReset = s.inReset ∧ (s.stepTest e).osc = s.osc ∧ (s.stepTest e).classifier = s.classifier ∧
    (s.stepTest e).flow = s.flow ∧ (s.stepTest e).pending = s.pending := by
  unfold State.stepTest
  try dsimp only
  (repeat' split) <;> simp

@[simp] theorem State.outlierTest_frame (e : Int) :
    (s.outlierTest e).inReset = s.inReset ∧ (s.outlierTest e).osc = s.osc ∧
    (s.outlierTest e).classifier = s.classifier ∧ (s.outlierTest e).correction = s.correction ∧
    (s.outlierTest e).sources = s.sources ∧ (s.outlierTest e).gens = s.gens ∧ (s.outlierTest e).lines = s.lines ∧
    (s.outlierTest e).flow = s.flow ∧ (s.outlierTest e).free = s.free ∧ (s.outlierTest e).pending = s.pending := by
  unfold State.outlierTest
  try dsimp only
  (repeat' split) <;> simp

@[simp] theorem State.offsetArrival_frame (e : Int) :
    (s.offsetArrival e).inReset = s.inReset ∧ (s.offsetArrival e).osc = s.osc ∧
    (s.offsetArrival e).classifier = s.classifier ∧ (s.offsetArrival e).flow = s.flow ∧
    (s.offsetArrival e).pending = s.pending := by
  unfold State.offsetArrival
  try dsimp only
  (repeat' split) <;> simp

@[simp] theorem State.deselect_frame :
    s.deselect.inReset = s.inReset ∧ s.deselect.osc = s.osc ∧ s.deselect.classifier = s.classifier ∧
    s.deselect.correction = s.correction ∧ s.deselect.sources = s.sources ∧ s.deselect.gens = s.gens ∧
    s.deselect.lines = s.lines ∧ s.deselect.flow = s.flow ∧ s.deselect.free = s.free ∧
    s.deselect.pending = s.pending := by
  unfold State.deselect
  try dsimp only
  (repeat' split) <;> simp

@[simp] theorem State.selectionChanged_frame (w i : Option (Fin 16)) :
    (s.selectionChanged w i).inReset = s.inReset ∧ (s.selectionChanged w i).osc = s.osc ∧
    (s.selectionChanged w i).classifier = s.classifier ∧ (s.selectionChanged w i).correction = s.correction ∧
    (s.selectionChanged w i).sources = s.sources ∧ (s.selectionChanged w i).gens = s.gens ∧
    (s.selectionChanged w i).lines = s.lines ∧ (s.selectionChanged w i).flow = s.flow ∧
    (s.selectionChanged w i).free = s.free ∧ (s.selectionChanged w i).pending = s.pending := by
  unfold State.selectionChanged
  try dsimp only
  (repeat' split) <;> simp

@[simp] theorem State.expireHoldover_frame :
    s.expireHoldover.inReset = s.inReset ∧ s.expireHoldover.osc = s.osc ∧
    s.expireHoldover.classifier = s.classifier ∧ s.expireHoldover.correction = s.correction ∧
    s.expireHoldover.sources = s.sources ∧ s.expireHoldover.gens = s.gens ∧ s.expireHoldover.lines = s.lines ∧
    s.expireHoldover.flow = s.flow ∧ s.expireHoldover.free = s.free ∧ s.expireHoldover.pending = s.pending := by
  unfold State.expireHoldover
  try dsimp only
  (repeat' split) <;> simp

@[simp] theorem State.servoRestart_frame :
    s.servoRestart.inReset = s.inReset ∧ s.servoRestart.osc = s.osc ∧ s.servoRestart.classifier = s.classifier ∧
    s.servoRestart.correction = s.correction ∧ s.servoRestart.sources = s.sources ∧ s.servoRestart.gens = s.gens ∧
    s.servoRestart.lines = s.lines ∧ s.servoRestart.flow = s.flow ∧ s.servoRestart.free = s.free ∧
    s.servoRestart.pending = s.pending := by
  unfold State.servoRestart
  try dsimp only
  (repeat' split) <;> simp

@[simp] theorem State.setTime_frame (t : TimeValue) :
    (s.setTime t).inReset = s.inReset ∧ (s.setTime t).osc = s.osc ∧ (s.setTime t).classifier = s.classifier ∧
    (s.setTime t).flow = s.flow ∧ (s.setTime t).pending = s.pending := by
  unfold State.setTime
  try dsimp only
  simp

@[simp] theorem State.setHouse_frame (h : HouseItems) :
    (s.setHouse h).inReset = s.inReset ∧ (s.setHouse h).osc = s.osc ∧ (s.setHouse h).servo = s.servo ∧
    (s.setHouse h).paths = s.paths ∧ (s.setHouse h).classifier = s.classifier ∧
    (s.setHouse h).correction = s.correction ∧ (s.setHouse h).lines = s.lines ∧ (s.setHouse h).flow = s.flow ∧
    (s.setHouse h).ctl = s.ctl ∧ (s.setHouse h).free = s.free ∧ (s.setHouse h).pending = s.pending := by
  unfold State.setHouse
  try dsimp only
  (repeat' split) <;> simp

@[simp] theorem State.loadHouse_frame :
    s.loadHouse.inReset = s.inReset ∧ s.loadHouse.osc = s.osc ∧ s.loadHouse.servo = s.servo ∧
    s.loadHouse.paths = s.paths ∧ s.loadHouse.classifier = s.classifier ∧ s.loadHouse.correction = s.correction ∧
    s.loadHouse.lines = s.lines ∧ s.loadHouse.flow = s.flow ∧ s.loadHouse.ctl = s.ctl ∧
    s.loadHouse.free = s.free ∧ s.loadHouse.pending = s.pending := by
  unfold State.loadHouse
  try dsimp only
  (repeat' split) <;> simp

@[simp] theorem State.changeSelection_frame (w i : Option (Fin 16)) :
    (s.changeSelection w i).inReset = s.inReset ∧ (s.changeSelection w i).osc = s.osc ∧
    (s.changeSelection w i).classifier = s.classifier ∧ (s.changeSelection w i).correction = s.correction ∧
    (s.changeSelection w i).lines = s.lines ∧ (s.changeSelection w i).flow = s.flow ∧
    (s.changeSelection w i).free = s.free ∧ (s.changeSelection w i).pending = s.pending := by
  unfold State.changeSelection
  try dsimp only
  (repeat' split) <;> simp

@[simp] theorem State.runSelection_frame :
    s.runSelection.inReset = s.inReset ∧ s.runSelection.osc = s.osc ∧ s.runSelection.classifier = s.classifier ∧
    s.runSelection.correction = s.correction ∧ s.runSelection.lines = s.lines ∧ s.runSelection.flow = s.flow ∧
    s.runSelection.free = s.free ∧ s.runSelection.pending = s.pending := by
  unfold State.runSelection
  try dsimp only
  (repeat' split) <;> simp

@[simp] theorem State.qualify_frame (i : Fin 16) :
    (s.qualify i).inReset = s.inReset ∧ (s.qualify i).osc = s.osc ∧ (s.qualify i).servo = s.servo ∧
    (s.qualify i).classifier = s.classifier ∧ (s.qualify i).correction = s.correction ∧
    (s.qualify i).gens = s.gens ∧ (s.qualify i).lines = s.lines ∧ (s.qualify i).flow = s.flow ∧
    (s.qualify i).ctl = s.ctl ∧ (s.qualify i).free = s.free ∧ (s.qualify i).pending = s.pending := by
  unfold State.qualify
  try dsimp only
  (repeat' split) <;> simp

@[simp] theorem State.dropTarget_frame (d : Ident) (p : Path) :
    (s.dropTarget d p).inReset = s.inReset ∧ (s.dropTarget d p).osc = s.osc ∧ (s.dropTarget d p).servo = s.servo ∧
    (s.dropTarget d p).classifier = s.classifier ∧ (s.dropTarget d p).correction = s.correction ∧
    (s.dropTarget d p).sources = s.sources ∧ (s.dropTarget d p).gens = s.gens ∧
    (s.dropTarget d p).lines = s.lines ∧ (s.dropTarget d p).flow = s.flow ∧ (s.dropTarget d p).ctl = s.ctl ∧
    (s.dropTarget d p).free = s.free ∧ (s.dropTarget d p).pending = s.pending := by
  unfold State.dropTarget
  try dsimp only
  simp

@[simp] theorem State.removeEntry_frame (i : Fin 16) :
    (s.removeEntry i).inReset = s.inReset ∧ (s.removeEntry i).osc = s.osc ∧ (s.removeEntry i).servo = s.servo ∧
    (s.removeEntry i).classifier = s.classifier ∧ (s.removeEntry i).correction = s.correction ∧
    (s.removeEntry i).gens = s.gens ∧ (s.removeEntry i).lines = s.lines ∧ (s.removeEntry i).flow = s.flow ∧
    (s.removeEntry i).ctl = s.ctl ∧ (s.removeEntry i).free = s.free ∧ (s.removeEntry i).pending = s.pending := by
  unfold State.removeEntry
  try dsimp only
  (repeat' split) <;> simp

@[simp] theorem State.createEntry_frame (i : Fin 16) (c : ScxCopy) (o : OfferBody) (p : Path) :
    (s.createEntry i c o p).inReset = s.inReset ∧ (s.createEntry i c o p).osc = s.osc ∧
    (s.createEntry i c o p).classifier = s.classifier ∧ (s.createEntry i c o p).correction = s.correction ∧
    (s.createEntry i c o p).lines = s.lines ∧ (s.createEntry i c o p).flow = s.flow ∧
    (s.createEntry i c o p).free = s.free ∧ (s.createEntry i c o p).pending = s.pending := by
  unfold State.createEntry
  try dsimp only
  simp

@[simp] theorem State.reviveEntry_frame (i : Fin 16) (c : ScxCopy) (o : OfferBody) (p : Path) :
    (s.reviveEntry i c o p).inReset = s.inReset ∧ (s.reviveEntry i c o p).osc = s.osc ∧
    (s.reviveEntry i c o p).classifier = s.classifier ∧ (s.reviveEntry i c o p).correction = s.correction ∧
    (s.reviveEntry i c o p).lines = s.lines ∧ (s.reviveEntry i c o p).flow = s.flow ∧
    (s.reviveEntry i c o p).free = s.free ∧ (s.reviveEntry i c o p).pending = s.pending := by
  unfold State.reviveEntry
  try dsimp only
  simp

@[simp] theorem State.updateEntry_frame (i : Fin 16) (e : SourceEntry) (c : ScxCopy) (o : OfferBody) :
    (s.updateEntry i e c o).inReset = s.inReset ∧ (s.updateEntry i e c o).osc = s.osc ∧
    (s.updateEntry i e c o).classifier = s.classifier ∧ (s.updateEntry i e c o).correction = s.correction ∧
    (s.updateEntry i e c o).lines = s.lines ∧ (s.updateEntry i e c o).flow = s.flow ∧
    (s.updateEntry i e c o).free = s.free ∧ (s.updateEntry i e c o).pending = s.pending := by
  unfold State.updateEntry
  try dsimp only
  (repeat' split) <;> simp

@[simp] theorem State.offerTableFull_frame (c : ScxCopy) (o : OfferBody) (p : Path) :
    (s.offerTableFull c o p).inReset = s.inReset ∧ (s.offerTableFull c o p).osc = s.osc ∧
    (s.offerTableFull c o p).classifier = s.classifier ∧ (s.offerTableFull c o p).correction = s.correction ∧
    (s.offerTableFull c o p).lines = s.lines ∧ (s.offerTableFull c o p).flow = s.flow ∧
    (s.offerTableFull c o p).pending = s.pending := by
  unfold State.offerTableFull
  try dsimp only
  (repeat' split) <;> simp

@[simp] theorem State.takeOffer_frame (p : Path) (c : ScxCopy) (o : OfferBody) :
    (s.takeOffer p c o).inReset = s.inReset ∧ (s.takeOffer p c o).osc = s.osc ∧
    (s.takeOffer p c o).classifier = s.classifier ∧ (s.takeOffer p c o).correction = s.correction ∧
    (s.takeOffer p c o).lines = s.lines ∧ (s.takeOffer p c o).flow = s.flow ∧
    (s.takeOffer p c o).pending = s.pending := by
  unfold State.takeOffer
  try dsimp only
  (repeat' split) <;> simp

@[simp] theorem State.nextOffer_frame (p : Path) :
    (s.nextOffer p).inReset = s.inReset ∧ (s.nextOffer p).osc = s.osc ∧
    (s.nextOffer p).classifier = s.classifier ∧ (s.nextOffer p).correction = s.correction ∧
    (s.nextOffer p).lines = s.lines ∧ (s.nextOffer p).flow = s.flow ∧ (s.nextOffer p).pending = s.pending := by
  unfold State.nextOffer
  try dsimp only
  (repeat' split) <;> simp

@[simp] theorem State.loseEntry_frame (i : Fin 16) :
    (s.loseEntry i).inReset = s.inReset ∧ (s.loseEntry i).osc = s.osc ∧ (s.loseEntry i).servo = s.servo ∧
    (s.loseEntry i).classifier = s.classifier ∧ (s.loseEntry i).correction = s.correction ∧
    (s.loseEntry i).gens = s.gens ∧ (s.loseEntry i).lines = s.lines ∧ (s.loseEntry i).flow = s.flow ∧
    (s.loseEntry i).free = s.free ∧ (s.loseEntry i).pending = s.pending := by
  unfold State.loseEntry
  try dsimp only
  (repeat' split) <;> simp

@[simp] theorem State.offerDeadline_frame (i : Fin 16) :
    (s.offerDeadline i).inReset = s.inReset ∧ (s.offerDeadline i).osc = s.osc ∧
    (s.offerDeadline i).classifier = s.classifier ∧ (s.offerDeadline i).correction = s.correction ∧
    (s.offerDeadline i).lines = s.lines ∧ (s.offerDeadline i).flow = s.flow ∧ (s.offerDeadline i).free = s.free ∧
    (s.offerDeadline i).pending = s.pending := by
  unfold State.offerDeadline
  try dsimp only
  (repeat' split) <;> simp

@[simp] theorem State.setLossLimit_frame (v : Nat) :
    (s.setLossLimit v).inReset = s.inReset ∧ (s.setLossLimit v).osc = s.osc ∧
    (s.setLossLimit v).classifier = s.classifier ∧ (s.setLossLimit v).correction = s.correction ∧
    (s.setLossLimit v).lines = s.lines ∧ (s.setLossLimit v).flow = s.flow ∧ (s.setLossLimit v).free = s.free ∧
    (s.setLossLimit v).pending = s.pending := by
  unfold State.setLossLimit
  refine ⟨?_, ?_, ?_, ?_, ?_, ?_, ?_, ?_⟩ <;> exact (foldl_field _ _ (fun t i => by simp) _ _).trans (by simp)

@[simp] theorem State.purgeRow_frame (i : Fin 16) :
    (s.purgeRow i).inReset = s.inReset ∧ (s.purgeRow i).osc = s.osc ∧ (s.purgeRow i).classifier = s.classifier ∧
    (s.purgeRow i).correction = s.correction ∧ (s.purgeRow i).lines = s.lines ∧ (s.purgeRow i).flow = s.flow ∧
    (s.purgeRow i).free = s.free ∧ (s.purgeRow i).pending = s.pending := by
  unfold State.purgeRow
  try dsimp only
  (repeat' split) <;> simp

@[simp] theorem State.muteDeadline_frame (i : Fin 16) :
    (s.muteDeadline i).inReset = s.inReset ∧ (s.muteDeadline i).osc = s.osc ∧
    (s.muteDeadline i).classifier = s.classifier ∧ (s.muteDeadline i).correction = s.correction ∧
    (s.muteDeadline i).lines = s.lines ∧ (s.muteDeadline i).flow = s.flow ∧ (s.muteDeadline i).free = s.free ∧
    (s.muteDeadline i).pending = s.pending := by
  unfold State.muteDeadline
  try dsimp only
  (repeat' split) <;> simp

@[simp] theorem State.reportBeacon_frame (i : Fin 16) (x t : Int) :
    (s.reportBeacon i x t).inReset = s.inReset ∧ (s.reportBeacon i x t).osc = s.osc ∧
    (s.reportBeacon i x t).classifier = s.classifier ∧ (s.reportBeacon i x t).correction = s.correction ∧
    (s.reportBeacon i x t).lines = s.lines ∧ (s.reportBeacon i x t).flow = s.flow ∧
    (s.reportBeacon i x t).free = s.free ∧ (s.reportBeacon i x t).pending = s.pending := by
  unfold State.reportBeacon
  try dsimp only
  (repeat' split) <;> simp

@[simp] theorem State.loseSources_frame (p : Path) :
    (s.loseSources p).inReset = s.inReset ∧ (s.loseSources p).osc = s.osc ∧
    (s.loseSources p).classifier = s.classifier ∧ (s.loseSources p).correction = s.correction ∧
    (s.loseSources p).lines = s.lines ∧ (s.loseSources p).flow = s.flow ∧ (s.loseSources p).free = s.free ∧
    (s.loseSources p).pending = s.pending := by
  unfold State.loseSources
  refine ⟨?_, ?_, ?_, ?_, ?_, ?_, ?_, ?_⟩ <;>
    simp only [State.runSelection_frame] <;> refine foldl_field _ _ (fun t i => ?_) _ _ <;> split <;> simp

@[simp] theorem State.storeRule_frame (i : Fin 8) (r : Option SourceRule) :
    (s.storeRule i r).inReset = s.inReset ∧ (s.storeRule i r).osc = s.osc ∧
    (s.storeRule i r).classifier = s.classifier ∧ (s.storeRule i r).correction = s.correction ∧
    (s.storeRule i r).lines = s.lines ∧ (s.storeRule i r).flow = s.flow ∧ (s.storeRule i r).free = s.free ∧
    (s.storeRule i r).pending = s.pending := by
  unfold State.storeRule
  try dsimp only
  simp

@[simp] theorem State.resolveProbe_frame (p : Path) :
    (s.resolveProbe p).inReset = s.inReset ∧ (s.resolveProbe p).osc = s.osc ∧ (s.resolveProbe p).servo = s.servo ∧
    (s.resolveProbe p).classifier = s.classifier ∧ (s.resolveProbe p).correction = s.correction ∧
    (s.resolveProbe p).sources = s.sources ∧ (s.resolveProbe p).gens = s.gens ∧
    (s.resolveProbe p).lines = s.lines ∧ (s.resolveProbe p).flow = s.flow ∧ (s.resolveProbe p).free = s.free ∧
    (s.resolveProbe p).pending = s.pending := by
  unfold State.resolveProbe
  try dsimp only
  (repeat' split) <;> simp

@[simp] theorem State.queueProbe_frame (p : Path) (d : Ident) (a : Station) :
    (s.queueProbe p d a).inReset = s.inReset ∧ (s.queueProbe p d a).osc = s.osc ∧
    (s.queueProbe p d a).servo = s.servo ∧ (s.queueProbe p d a).classifier = s.classifier ∧
    (s.queueProbe p d a).correction = s.correction ∧ (s.queueProbe p d a).sources = s.sources ∧
    (s.queueProbe p d a).gens = s.gens ∧ (s.queueProbe p d a).lines = s.lines ∧
    (s.queueProbe p d a).flow = s.flow ∧ (s.queueProbe p d a).ctl = s.ctl ∧ (s.queueProbe p d a).free = s.free ∧
    (s.queueProbe p d a).pending = s.pending := by
  unfold State.queueProbe
  try dsimp only
  simp

@[simp] theorem State.skipProbe_frame (p : Path) :
    (s.skipProbe p).inReset = s.inReset ∧ (s.skipProbe p).osc = s.osc ∧ (s.skipProbe p).servo = s.servo ∧
    (s.skipProbe p).classifier = s.classifier ∧ (s.skipProbe p).correction = s.correction ∧
    (s.skipProbe p).sources = s.sources ∧ (s.skipProbe p).gens = s.gens ∧ (s.skipProbe p).lines = s.lines ∧
    (s.skipProbe p).flow = s.flow ∧ (s.skipProbe p).ctl = s.ctl ∧ (s.skipProbe p).free = s.free ∧
    (s.skipProbe p).pending = s.pending := by
  unfold State.skipProbe
  try dsimp only
  simp

@[simp] theorem State.offerProbe_frame (p : Path) :
    (s.offerProbe p).inReset = s.inReset ∧ (s.offerProbe p).osc = s.osc ∧ (s.offerProbe p).servo = s.servo ∧
    (s.offerProbe p).classifier = s.classifier ∧ (s.offerProbe p).correction = s.correction ∧
    (s.offerProbe p).sources = s.sources ∧ (s.offerProbe p).gens = s.gens ∧ (s.offerProbe p).lines = s.lines ∧
    (s.offerProbe p).flow = s.flow ∧ (s.offerProbe p).ctl = s.ctl ∧ (s.offerProbe p).free = s.free ∧
    (s.offerProbe p).pending = s.pending := by
  unfold State.offerProbe
  try dsimp only
  (repeat' split) <;> simp

@[simp] theorem State.probeDue_frame (p : Path) :
    (s.probeDue p).inReset = s.inReset ∧ (s.probeDue p).osc = s.osc ∧ (s.probeDue p).servo = s.servo ∧
    (s.probeDue p).classifier = s.classifier ∧ (s.probeDue p).correction = s.correction ∧
    (s.probeDue p).sources = s.sources ∧ (s.probeDue p).gens = s.gens ∧ (s.probeDue p).lines = s.lines ∧
    (s.probeDue p).flow = s.flow ∧ (s.probeDue p).free = s.free ∧ (s.probeDue p).pending = s.pending := by
  unfold State.probeDue
  try dsimp only
  (repeat' split) <;> simp

@[simp] theorem State.addSample_frame (p : Path) (i : Fin 16) (f r : Int) :
    (s.addSample p i f r).inReset = s.inReset ∧ (s.addSample p i f r).osc = s.osc ∧
    (s.addSample p i f r).servo = s.servo ∧ (s.addSample p i f r).classifier = s.classifier ∧
    (s.addSample p i f r).correction = s.correction ∧ (s.addSample p i f r).gens = s.gens ∧
    (s.addSample p i f r).lines = s.lines ∧ (s.addSample p i f r).flow = s.flow ∧
    (s.addSample p i f r).free = s.free ∧ (s.addSample p i f r).pending = s.pending := by
  unfold State.addSample
  try dsimp only
  (repeat' split) <;> simp

@[simp] theorem State.useReply_frame (p : Path) (m : Scx) (t : MessageTime) (d : Int) :
    (s.useReply p m t d).inReset = s.inReset ∧ (s.useReply p m t d).osc = s.osc ∧
    (s.useReply p m t d).servo = s.servo ∧ (s.useReply p m t d).classifier = s.classifier ∧
    (s.useReply p m t d).correction = s.correction ∧ (s.useReply p m t d).gens = s.gens ∧
    (s.useReply p m t d).lines = s.lines ∧ (s.useReply p m t d).flow = s.flow ∧
    (s.useReply p m t d).free = s.free ∧ (s.useReply p m t d).pending = s.pending := by
  unfold State.useReply
  try dsimp only
  (repeat' split) <;> simp

@[simp] theorem State.takeReply_frame (p : Path) (m : Scx) (t : MessageTime) (q : Nat) :
    (s.takeReply p m t q).inReset = s.inReset ∧ (s.takeReply p m t q).osc = s.osc ∧
    (s.takeReply p m t q).servo = s.servo ∧ (s.takeReply p m t q).classifier = s.classifier ∧
    (s.takeReply p m t q).correction = s.correction ∧ (s.takeReply p m t q).gens = s.gens ∧
    (s.takeReply p m t q).lines = s.lines ∧ (s.takeReply p m t q).flow = s.flow ∧
    (s.takeReply p m t q).free = s.free ∧ (s.takeReply p m t q).pending = s.pending := by
  unfold State.takeReply
  try dsimp only
  (repeat' split) <;> simp

@[simp] theorem State.nextReply_frame (p : Path) :
    (s.nextReply p).inReset = s.inReset ∧ (s.nextReply p).osc = s.osc ∧ (s.nextReply p).servo = s.servo ∧
    (s.nextReply p).classifier = s.classifier ∧ (s.nextReply p).correction = s.correction ∧
    (s.nextReply p).gens = s.gens ∧ (s.nextReply p).lines = s.lines ∧ (s.nextReply p).flow = s.flow ∧
    (s.nextReply p).free = s.free ∧ (s.nextReply p).pending = s.pending := by
  unfold State.nextReply
  try dsimp only
  (repeat' split) <;> simp

@[simp] theorem State.produceOffset_frame (p : Path) (i : Fin 16) (f : Int) :
    (s.produceOffset p i f).inReset = s.inReset ∧ (s.produceOffset p i f).osc = s.osc ∧
    (s.produceOffset p i f).classifier = s.classifier ∧ (s.produceOffset p i f).flow = s.flow ∧
    (s.produceOffset p i f).pending = s.pending := by
  unfold State.produceOffset
  try dsimp only
  (repeat' split) <;> simp

@[simp] theorem State.completeBeacon_frame (p : Path) (i : Fin 16) (a o c x t : Int) :
    (s.completeBeacon p i a o c x t).inReset = s.inReset ∧ (s.completeBeacon p i a o c x t).osc = s.osc ∧
    (s.completeBeacon p i a o c x t).classifier = s.classifier ∧ (s.completeBeacon p i a o c x t).flow = s.flow ∧
    (s.completeBeacon p i a o c x t).pending = s.pending := by
  unfold State.completeBeacon
  try dsimp only
  (repeat' split) <;> simp

@[simp] theorem State.takeBeacon_frame (p : Path) (c : ScxCopy) (o : MessageTime) :
    (s.takeBeacon p c o).inReset = s.inReset ∧ (s.takeBeacon p c o).osc = s.osc ∧
    (s.takeBeacon p c o).classifier = s.classifier ∧ (s.takeBeacon p c o).flow = s.flow ∧
    (s.takeBeacon p c o).pending = s.pending := by
  unfold State.takeBeacon
  try dsimp only
  (repeat' split) <;> simp

@[simp] theorem State.takeDetail_frame (p : Path) (c : ScxCopy) (o : MessageTime) :
    (s.takeDetail p c o).inReset = s.inReset ∧ (s.takeDetail p c o).osc = s.osc ∧
    (s.takeDetail p c o).classifier = s.classifier ∧ (s.takeDetail p c o).flow = s.flow ∧
    (s.takeDetail p c o).pending = s.pending := by
  unfold State.takeDetail
  try dsimp only
  (repeat' split) <;> simp

@[simp] theorem State.nextBeacon_frame (p : Path) :
    (s.nextBeacon p).inReset = s.inReset ∧ (s.nextBeacon p).osc = s.osc ∧
    (s.nextBeacon p).classifier = s.classifier ∧ (s.nextBeacon p).flow = s.flow ∧
    (s.nextBeacon p).pending = s.pending := by
  unfold State.nextBeacon
  try dsimp only
  (repeat' split) <;> simp

@[simp] theorem State.nextDetail_frame (p : Path) :
    (s.nextDetail p).inReset = s.inReset ∧ (s.nextDetail p).osc = s.osc ∧
    (s.nextDetail p).classifier = s.classifier ∧ (s.nextDetail p).flow = s.flow ∧
    (s.nextDetail p).pending = s.pending := by
  unfold State.nextDetail
  try dsimp only
  (repeat' split) <;> simp

@[simp] theorem State.setProbeExponent_frame (p : Path) (v : Int) :
    (s.setProbeExponent p v).inReset = s.inReset ∧ (s.setProbeExponent p v).osc = s.osc ∧
    (s.setProbeExponent p v).servo = s.servo ∧ (s.setProbeExponent p v).classifier = s.classifier ∧
    (s.setProbeExponent p v).correction = s.correction ∧ (s.setProbeExponent p v).sources = s.sources ∧
    (s.setProbeExponent p v).gens = s.gens ∧ (s.setProbeExponent p v).lines = s.lines ∧
    (s.setProbeExponent p v).flow = s.flow ∧ (s.setProbeExponent p v).ctl = s.ctl ∧
    (s.setProbeExponent p v).free = s.free ∧ (s.setProbeExponent p v).pending = s.pending := by
  unfold State.setProbeExponent
  try dsimp only
  simp

@[simp] theorem State.setWindowLength_frame (p : Path) (v : Nat) :
    (s.setWindowLength p v).inReset = s.inReset ∧ (s.setWindowLength p v).osc = s.osc ∧
    (s.setWindowLength p v).servo = s.servo ∧ (s.setWindowLength p v).classifier = s.classifier ∧
    (s.setWindowLength p v).correction = s.correction ∧ (s.setWindowLength p v).gens = s.gens ∧
    (s.setWindowLength p v).lines = s.lines ∧ (s.setWindowLength p v).flow = s.flow ∧
    (s.setWindowLength p v).ctl = s.ctl ∧ (s.setWindowLength p v).free = s.free ∧
    (s.setWindowLength p v).pending = s.pending := by
  unfold State.setWindowLength
  try dsimp only
  simp

@[simp] theorem State.storeFlow_frame (i : Fin 64) (c : FlowConfig) :
    (s.storeFlow i c).inReset = s.inReset ∧ (s.storeFlow i c).osc = s.osc ∧ (s.storeFlow i c).servo = s.servo ∧
    (s.storeFlow i c).paths = s.paths ∧ (s.storeFlow i c).classifier = s.classifier ∧
    (s.storeFlow i c).correction = s.correction ∧ (s.storeFlow i c).sources = s.sources ∧
    (s.storeFlow i c).gens = s.gens ∧ (s.storeFlow i c).lines = s.lines ∧ (s.storeFlow i c).ctl = s.ctl ∧
    (s.storeFlow i c).free = s.free ∧ (s.storeFlow i c).pending = s.pending := by
  unfold State.storeFlow
  try dsimp only
  simp

@[simp] theorem State.setFlowEnable_frame (b : Bool) :
    (s.setFlowEnable b).inReset = s.inReset ∧ (s.setFlowEnable b).osc = s.osc ∧
    (s.setFlowEnable b).servo = s.servo ∧ (s.setFlowEnable b).paths = s.paths ∧
    (s.setFlowEnable b).classifier = s.classifier ∧ (s.setFlowEnable b).correction = s.correction ∧
    (s.setFlowEnable b).sources = s.sources ∧ (s.setFlowEnable b).gens = s.gens ∧
    (s.setFlowEnable b).lines = s.lines ∧ (s.setFlowEnable b).ctl = s.ctl ∧ (s.setFlowEnable b).free = s.free ∧
    (s.setFlowEnable b).pending = s.pending := by
  unfold State.setFlowEnable
  try dsimp only
  (repeat' split) <;> simp

@[simp] theorem State.measureMedia_frame (i : Fin 64) (m : MediaCopy) :
    (s.measureMedia i m).inReset = s.inReset ∧ (s.measureMedia i m).osc = s.osc ∧
    (s.measureMedia i m).servo = s.servo ∧ (s.measureMedia i m).classifier = s.classifier ∧
    (s.measureMedia i m).correction = s.correction ∧ (s.measureMedia i m).sources = s.sources ∧
    (s.measureMedia i m).gens = s.gens ∧ (s.measureMedia i m).lines = s.lines ∧
    (s.measureMedia i m).free = s.free ∧ (s.measureMedia i m).pending = s.pending := by
  unfold State.measureMedia
  try dsimp only
  (repeat' split) <;> simp

@[simp] theorem State.takeMedia_frame (p : Port) (m : MediaCopy) :
    (s.takeMedia p m).inReset = s.inReset ∧ (s.takeMedia p m).osc = s.osc ∧ (s.takeMedia p m).servo = s.servo ∧
    (s.takeMedia p m).classifier = s.classifier ∧ (s.takeMedia p m).correction = s.correction ∧
    (s.takeMedia p m).sources = s.sources ∧ (s.takeMedia p m).gens = s.gens ∧ (s.takeMedia p m).lines = s.lines ∧
    (s.takeMedia p m).free = s.free ∧ (s.takeMedia p m).pending = s.pending := by
  unfold State.takeMedia
  try dsimp only
  (repeat' split) <;> simp

@[simp] theorem State.nextMedia_frame (p : Port) :
    (s.nextMedia p).inReset = s.inReset ∧ (s.nextMedia p).osc = s.osc ∧ (s.nextMedia p).servo = s.servo ∧
    (s.nextMedia p).classifier = s.classifier ∧ (s.nextMedia p).correction = s.correction ∧
    (s.nextMedia p).sources = s.sources ∧ (s.nextMedia p).gens = s.gens ∧ (s.nextMedia p).lines = s.lines ∧
    (s.nextMedia p).free = s.free ∧ (s.nextMedia p).pending = s.pending := by
  unfold State.nextMedia
  try dsimp only
  (repeat' split) <;> simp

@[simp] theorem State.silenceEnds_frame (i : Fin 64) :
    (s.silenceEnds i).inReset = s.inReset ∧ (s.silenceEnds i).osc = s.osc ∧ (s.silenceEnds i).servo = s.servo ∧
    (s.silenceEnds i).classifier = s.classifier ∧ (s.silenceEnds i).correction = s.correction ∧
    (s.silenceEnds i).sources = s.sources ∧ (s.silenceEnds i).gens = s.gens ∧ (s.silenceEnds i).lines = s.lines ∧
    (s.silenceEnds i).free = s.free ∧ (s.silenceEnds i).pending = s.pending := by
  unfold State.silenceEnds
  try dsimp only
  (repeat' split) <;> simp

@[simp] theorem State.beginSending_frame (p : Port) :
    (s.beginSending p).inReset = s.inReset ∧ (s.beginSending p).osc = s.osc ∧ (s.beginSending p).servo = s.servo ∧
    (s.beginSending p).classifier = s.classifier ∧ (s.beginSending p).sources = s.sources ∧
    (s.beginSending p).gens = s.gens ∧ (s.beginSending p).lines = s.lines ∧ (s.beginSending p).flow = s.flow ∧
    (s.beginSending p).free = s.free ∧ (s.beginSending p).pending = s.pending := by
  unfold State.beginSending
  try dsimp only
  (repeat' split) <;> simp

@[simp] theorem State.linkUp_frame (p : Port) (v : Speed) :
    (s.linkUp p v).inReset = s.inReset ∧ (s.linkUp p v).osc = s.osc ∧ (s.linkUp p v).classifier = s.classifier ∧
    (s.linkUp p v).lines = s.lines ∧ (s.linkUp p v).flow = s.flow ∧ (s.linkUp p v).free = s.free ∧
    (s.linkUp p v).pending = s.pending := by
  unfold State.linkUp
  try dsimp only
  (repeat' split) <;> simp

@[simp] theorem State.linkDown_frame (p : Port) :
    (s.linkDown p).inReset = s.inReset ∧ (s.linkDown p).osc = s.osc ∧ (s.linkDown p).classifier = s.classifier ∧
    (s.linkDown p).lines = s.lines ∧ (s.linkDown p).flow = s.flow ∧ (s.linkDown p).free = s.free ∧
    (s.linkDown p).pending = s.pending := by
  unfold State.linkDown
  try dsimp only
  (repeat' split) <;> simp

@[simp] theorem State.startMarker_frame (p : Port) :
    (s.startMarker p).inReset = s.inReset ∧ (s.startMarker p).osc = s.osc ∧ (s.startMarker p).servo = s.servo ∧
    (s.startMarker p).classifier = s.classifier ∧ (s.startMarker p).correction = s.correction ∧
    (s.startMarker p).sources = s.sources ∧ (s.startMarker p).gens = s.gens ∧ (s.startMarker p).lines = s.lines ∧
    (s.startMarker p).flow = s.flow ∧ (s.startMarker p).ctl = s.ctl ∧ (s.startMarker p).free = s.free ∧
    (s.startMarker p).pending = s.pending := by
  unfold State.startMarker
  try dsimp only
  (repeat' split) <;> simp

@[simp] theorem State.handDown_frame (p : Path) (f : HeldFrame) :
    (s.handDown p f).inReset = s.inReset ∧ (s.handDown p f).osc = s.osc ∧ (s.handDown p f).servo = s.servo ∧
    (s.handDown p f).classifier = s.classifier ∧ (s.handDown p f).sources = s.sources ∧
    (s.handDown p f).gens = s.gens ∧ (s.handDown p f).lines = s.lines ∧ (s.handDown p f).flow = s.flow ∧
    (s.handDown p f).free = s.free ∧ (s.handDown p f).pending = s.pending := by
  unfold State.handDown
  try dsimp only
  simp

@[simp] theorem State.handUp_frame (p : Path) (f : HeldFrame) :
    (s.handUp p f).inReset = s.inReset ∧ (s.handUp p f).osc = s.osc ∧ (s.handUp p f).servo = s.servo ∧
    (s.handUp p f).classifier = s.classifier ∧ (s.handUp p f).correction = s.correction ∧
    (s.handUp p f).sources = s.sources ∧ (s.handUp p f).gens = s.gens ∧ (s.handUp p f).lines = s.lines ∧
    (s.handUp p f).flow = s.flow ∧ (s.handUp p f).free = s.free ∧ (s.handUp p f).pending = s.pending := by
  unfold State.handUp
  try dsimp only
  (repeat' split) <;> simp

@[simp] theorem State.passOn_frame (p : Port) (f : HeldFrame) :
    (s.passOn p f).inReset = s.inReset ∧ (s.passOn p f).osc = s.osc ∧ (s.passOn p f).servo = s.servo ∧
    (s.passOn p f).classifier = s.classifier ∧ (s.passOn p f).sources = s.sources ∧ (s.passOn p f).gens = s.gens ∧
    (s.passOn p f).lines = s.lines ∧ (s.passOn p f).flow = s.flow ∧ (s.passOn p f).free = s.free ∧
    (s.passOn p f).pending = s.pending := by
  unfold State.passOn
  try dsimp only
  (repeat' split) <;> simp

@[simp] theorem State.handControl_frame (p : Path) (f : List Byte) :
    (s.handControl p f).inReset = s.inReset ∧ (s.handControl p f).osc = s.osc ∧
    (s.handControl p f).servo = s.servo ∧ (s.handControl p f).classifier = s.classifier ∧
    (s.handControl p f).correction = s.correction ∧ (s.handControl p f).sources = s.sources ∧
    (s.handControl p f).gens = s.gens ∧ (s.handControl p f).lines = s.lines ∧ (s.handControl p f).flow = s.flow ∧
    (s.handControl p f).free = s.free ∧ (s.handControl p f).pending = s.pending := by
  unfold State.handControl
  try dsimp only
  (repeat' split) <;> simp

@[simp] theorem State.copyScx_frame (p : Path) (f : List Byte) (t : Stamp) :
    (s.copyScx p f t).inReset = s.inReset ∧ (s.copyScx p f t).osc = s.osc ∧ (s.copyScx p f t).servo = s.servo ∧
    (s.copyScx p f t).classifier = s.classifier ∧ (s.copyScx p f t).correction = s.correction ∧
    (s.copyScx p f t).sources = s.sources ∧ (s.copyScx p f t).gens = s.gens ∧ (s.copyScx p f t).lines = s.lines ∧
    (s.copyScx p f t).flow = s.flow ∧ (s.copyScx p f t).ctl = s.ctl ∧ (s.copyScx p f t).free = s.free ∧
    (s.copyScx p f t).pending = s.pending := by
  unfold State.copyScx
  try dsimp only
  (repeat' split) <;> simp

@[simp] theorem State.classified_frame (p : Port) (f : List Byte) (t : Stamp) :
    (s.classified p f t).inReset = s.inReset ∧ (s.classified p f t).osc = s.osc ∧
    (s.classified p f t).servo = s.servo ∧ (s.classified p f t).classifier = s.classifier ∧
    (s.classified p f t).sources = s.sources ∧ (s.classified p f t).gens = s.gens ∧
    (s.classified p f t).lines = s.lines ∧ (s.classified p f t).flow = s.flow ∧
    (s.classified p f t).free = s.free ∧ (s.classified p f t).pending = s.pending := by
  unfold State.classified
  try dsimp only
  (repeat' split) <;> simp

@[simp] theorem State.frameReceived_frame (p : Port) (f : List Byte) :
    (s.frameReceived p f).inReset = s.inReset ∧ (s.frameReceived p f).osc = s.osc ∧
    (s.frameReceived p f).servo = s.servo ∧ (s.frameReceived p f).classifier = s.classifier ∧
    (s.frameReceived p f).sources = s.sources ∧ (s.frameReceived p f).gens = s.gens ∧
    (s.frameReceived p f).lines = s.lines ∧ (s.frameReceived p f).flow = s.flow ∧
    (s.frameReceived p f).free = s.free ∧ (s.frameReceived p f).pending = s.pending := by
  unfold State.frameReceived
  try dsimp only
  (repeat' split) <;> simp

@[simp] theorem State.transmitEnd_frame (p : Port) :
    (s.transmitEnd p).inReset = s.inReset ∧ (s.transmitEnd p).osc = s.osc ∧ (s.transmitEnd p).servo = s.servo ∧
    (s.transmitEnd p).classifier = s.classifier ∧ (s.transmitEnd p).sources = s.sources ∧
    (s.transmitEnd p).gens = s.gens ∧ (s.transmitEnd p).lines = s.lines ∧ (s.transmitEnd p).flow = s.flow ∧
    (s.transmitEnd p).free = s.free ∧ (s.transmitEnd p).pending = s.pending := by
  unfold State.transmitEnd
  try dsimp only
  (repeat' split) <;> simp

end Sys2Proof.Machine
end

