-- ==== Sys2Proof/Laws/Commands.lean ====
section
/-! SUPPORT. What elapsing time and each management command leave unchanged, by field, and the one shape every meaning
has: an event or a command answers a next state. -/

namespace Sys2Proof.Machine

variable (s : State)

@[simp] theorem State.elapse_frame (dt : Nat) :
    (s.elapse dt).inReset = s.inReset ∧ (s.elapse dt).classifier = s.classifier ∧ (s.elapse dt).gens = s.gens ∧
    (s.elapse dt).free = s.free ∧ (s.elapse dt).pending = s.pending := by simp [State.elapse]

theorem event_live {dt : Nat} {f : State → State} (h : s.inReset = false) : event dt f s = .next (f (s.elapse dt)) := by
  simp [event, h]

theorem event_inReset {dt : Nat} {f : State → State} (h : s.inReset = true) : event dt f s = .next s := by
  simp [event, h]

theorem command_live {f : State → Done} (h : s.inReset = false) : command f s = .next (s.runAlone f) := by
  simp [command, h]

theorem command_inReset {f : State → Done} (h : s.inReset = true) : command f s = .next s := by
  simp [command, h]

@[simp] theorem State.writeTrimLimit_frame (v : BitVec 64) :
    (s.writeTrimLimit v).1.inReset = s.inReset ∧ (s.writeTrimLimit v).1.osc = s.osc ∧
    (s.writeTrimLimit v).1.paths = s.paths ∧ (s.writeTrimLimit v).1.classifier = s.classifier ∧
    (s.writeTrimLimit v).1.correction = s.correction ∧ (s.writeTrimLimit v).1.sources = s.sources ∧
    (s.writeTrimLimit v).1.gens = s.gens ∧ (s.writeTrimLimit v).1.lines = s.lines ∧
    (s.writeTrimLimit v).1.flow = s.flow ∧ (s.writeTrimLimit v).1.ctl = s.ctl ∧
    (s.writeTrimLimit v).1.free = s.free ∧ (s.writeTrimLimit v).1.pending = s.pending := by
  unfold State.writeTrimLimit
  try dsimp only [storeIf, acceptRow, asDone, withItem, withLength, State.eachSelected, bare]
  simp

@[simp] theorem State.writeLockMode_frame (v : BitVec 64) :
    (s.writeLockMode v).1.inReset = s.inReset ∧ (s.writeLockMode v).1.osc = s.osc ∧
    (s.writeLockMode v).1.classifier = s.classifier ∧ (s.writeLockMode v).1.correction = s.correction ∧
    (s.writeLockMode v).1.sources = s.sources ∧ (s.writeLockMode v).1.gens = s.gens ∧
    (s.writeLockMode v).1.lines = s.lines ∧ (s.writeLockMode v).1.flow = s.flow ∧
    (s.writeLockMode v).1.free = s.free ∧ (s.writeLockMode v).1.pending = s.pending := by
  unfold State.writeLockMode
  try dsimp only [storeIf, acceptRow, asDone, withItem, withLength, State.eachSelected, bare]
  (repeat' split) <;> simp

@[simp] theorem State.writeServoItem_frame (n : Nat) (v : BitVec 64) :
    (s.writeServoItem n v).1.inReset = s.inReset ∧ (s.writeServoItem n v).1.osc = s.osc ∧
    (s.writeServoItem n v).1.paths = s.paths ∧ (s.writeServoItem n v).1.classifier = s.classifier ∧
    (s.writeServoItem n v).1.correction = s.correction ∧ (s.writeServoItem n v).1.sources = s.sources ∧
    (s.writeServoItem n v).1.gens = s.gens ∧ (s.writeServoItem n v).1.lines = s.lines ∧
    (s.writeServoItem n v).1.flow = s.flow ∧ (s.writeServoItem n v).1.ctl = s.ctl ∧
    (s.writeServoItem n v).1.free = s.free ∧ (s.writeServoItem n v).1.pending = s.pending := by
  unfold State.writeServoItem
  try dsimp only [storeIf, acceptRow, asDone, withItem, withLength, State.eachSelected, bare]
  (repeat' split) <;> simp

@[simp] theorem State.modSelectedPort_frame (b : Bool) (f : PortState → PortState) :
    (s.modSelectedPort b f).inReset = s.inReset ∧ (s.modSelectedPort b f).osc = s.osc ∧
    (s.modSelectedPort b f).servo = s.servo ∧ (s.modSelectedPort b f).classifier = s.classifier ∧
    (s.modSelectedPort b f).correction = s.correction ∧ (s.modSelectedPort b f).sources = s.sources ∧
    (s.modSelectedPort b f).gens = s.gens ∧ (s.modSelectedPort b f).lines = s.lines ∧
    (s.modSelectedPort b f).flow = s.flow ∧ (s.modSelectedPort b f).ctl = s.ctl ∧
    (s.modSelectedPort b f).free = s.free ∧ (s.modSelectedPort b f).pending = s.pending := by
  unfold State.modSelectedPort
  try dsimp only [storeIf, acceptRow, asDone, withItem, withLength, State.eachSelected, bare]
  (repeat' split) <;> simp

@[simp] theorem State.writeTrim_frame (n : Nat) (v : BitVec 64) :
    (s.writeTrim n v).1.inReset = s.inReset ∧ (s.writeTrim n v).1.osc = s.osc ∧
    (s.writeTrim n v).1.servo = s.servo ∧ (s.writeTrim n v).1.classifier = s.classifier ∧
    (s.writeTrim n v).1.correction = s.correction ∧ (s.writeTrim n v).1.sources = s.sources ∧
    (s.writeTrim n v).1.gens = s.gens ∧ (s.writeTrim n v).1.lines = s.lines ∧ (s.writeTrim n v).1.flow = s.flow ∧
    (s.writeTrim n v).1.ctl = s.ctl ∧ (s.writeTrim n v).1.free = s.free ∧
    (s.writeTrim n v).1.pending = s.pending := by
  unfold State.writeTrim
  try dsimp only [storeIf, acceptRow, asDone, withItem, withLength, State.eachSelected, bare]
  (repeat' split) <;> simp

@[simp] theorem State.writeClassifier_frame (n : Nat) (v : BitVec 64) :
    (s.writeClassifier n v).1.inReset = s.inReset ∧ (s.writeClassifier n v).1.osc = s.osc ∧
    (s.writeClassifier n v).1.servo = s.servo ∧ (s.writeClassifier n v).1.paths = s.paths ∧
    (s.writeClassifier n v).1.correction = s.correction ∧ (s.writeClassifier n v).1.sources = s.sources ∧
    (s.writeClassifier n v).1.gens = s.gens ∧ (s.writeClassifier n v).1.lines = s.lines ∧
    (s.writeClassifier n v).1.flow = s.flow ∧ (s.writeClassifier n v).1.ctl = s.ctl ∧
    (s.writeClassifier n v).1.free = s.free ∧ (s.writeClassifier n v).1.pending = s.pending := by
  unfold State.writeClassifier
  try dsimp only [storeIf, acceptRow, asDone, withItem, withLength, State.eachSelected, bare]
  (repeat' split) <;> simp

@[simp] theorem State.writeClass_frame (r : Requester) (v : BitVec 64) :
    (s.writeClass r v).1.inReset = s.inReset ∧ (s.writeClass r v).1.osc = s.osc ∧
    (s.writeClass r v).1.servo = s.servo ∧ (s.writeClass r v).1.classifier = s.classifier ∧
    (s.writeClass r v).1.correction = s.correction ∧ (s.writeClass r v).1.sources = s.sources ∧
    (s.writeClass r v).1.gens = s.gens ∧ (s.writeClass r v).1.lines = s.lines ∧
    (s.writeClass r v).1.flow = s.flow ∧ (s.writeClass r v).1.ctl = s.ctl ∧ (s.writeClass r v).1.free = s.free ∧
    (s.writeClass r v).1.pending = s.pending := by
  unfold State.writeClass
  try dsimp only [storeIf, acceptRow, asDone, withItem, withLength, State.eachSelected, bare]
  (repeat' split) <;> simp

@[simp] theorem State.writeLifetime_frame (v : BitVec 64) :
    (s.writeLifetime v).1.inReset = s.inReset ∧ (s.writeLifetime v).1.osc = s.osc ∧
    (s.writeLifetime v).1.servo = s.servo ∧ (s.writeLifetime v).1.classifier = s.classifier ∧
    (s.writeLifetime v).1.sources = s.sources ∧ (s.writeLifetime v).1.gens = s.gens ∧
    (s.writeLifetime v).1.lines = s.lines ∧ (s.writeLifetime v).1.flow = s.flow ∧
    (s.writeLifetime v).1.free = s.free ∧ (s.writeLifetime v).1.pending = s.pending := by
  unfold State.writeLifetime
  try dsimp only [storeIf, acceptRow, asDone, withItem, withLength, State.eachSelected, bare]
  simp

@[simp] theorem State.writeQualCount_frame (v : BitVec 64) :
    (s.writeQualCount v).1.inReset = s.inReset ∧ (s.writeQualCount v).1.osc = s.osc ∧
    (s.writeQualCount v).1.servo = s.servo ∧ (s.writeQualCount v).1.paths = s.paths ∧
    (s.writeQualCount v).1.classifier = s.classifier ∧ (s.writeQualCount v).1.correction = s.correction ∧
    (s.writeQualCount v).1.gens = s.gens ∧ (s.writeQualCount v).1.lines = s.lines ∧
    (s.writeQualCount v).1.flow = s.flow ∧ (s.writeQualCount v).1.ctl = s.ctl ∧
    (s.writeQualCount v).1.free = s.free ∧ (s.writeQualCount v).1.pending = s.pending := by
  unfold State.writeQualCount
  try dsimp only [storeIf, acceptRow, asDone, withItem, withLength, State.eachSelected, bare]
  simp

@[simp] theorem State.writeLossLimit_frame (v : BitVec 64) :
    (s.writeLossLimit v).1.inReset = s.inReset ∧ (s.writeLossLimit v).1.osc = s.osc ∧
    (s.writeLossLimit v).1.classifier = s.classifier ∧ (s.writeLossLimit v).1.correction = s.correction ∧
    (s.writeLossLimit v).1.lines = s.lines ∧ (s.writeLossLimit v).1.flow = s.flow ∧
    (s.writeLossLimit v).1.free = s.free ∧ (s.writeLossLimit v).1.pending = s.pending := by
  unfold State.writeLossLimit
  try dsimp only [storeIf, acceptRow, asDone, withItem, withLength, State.eachSelected, bare]
  simp

@[simp] theorem State.writePreferred_frame (v : BitVec 64) :
    (s.writePreferred v).1.inReset = s.inReset ∧ (s.writePreferred v).1.osc = s.osc ∧
    (s.writePreferred v).1.classifier = s.classifier ∧ (s.writePreferred v).1.correction = s.correction ∧
    (s.writePreferred v).1.lines = s.lines ∧ (s.writePreferred v).1.flow = s.flow ∧
    (s.writePreferred v).1.free = s.free ∧ (s.writePreferred v).1.pending = s.pending := by
  unfold State.writePreferred
  try dsimp only [storeIf, acceptRow, asDone, withItem, withLength, State.eachSelected, bare]
  (repeat' split) <;> simp

@[simp] theorem State.writeRevertive_frame (v : BitVec 64) :
    (s.writeRevertive v).1.inReset = s.inReset ∧ (s.writeRevertive v).1.osc = s.osc ∧
    (s.writeRevertive v).1.classifier = s.classifier ∧ (s.writeRevertive v).1.correction = s.correction ∧
    (s.writeRevertive v).1.lines = s.lines ∧ (s.writeRevertive v).1.flow = s.flow ∧
    (s.writeRevertive v).1.free = s.free ∧ (s.writeRevertive v).1.pending = s.pending := by
  unfold State.writeRevertive
  try dsimp only [storeIf, acceptRow, asDone, withItem, withLength, State.eachSelected, bare]
  (repeat' split) <;> simp

@[simp] theorem State.writeHouse_frame (i : HouseItem) (v : BitVec 64) :
    (s.writeHouse i v).1.inReset = s.inReset ∧ (s.writeHouse i v).1.osc = s.osc ∧
    (s.writeHouse i v).1.servo = s.servo ∧ (s.writeHouse i v).1.paths = s.paths ∧
    (s.writeHouse i v).1.classifier = s.classifier ∧ (s.writeHouse i v).1.correction = s.correction ∧
    (s.writeHouse i v).1.lines = s.lines ∧ (s.writeHouse i v).1.flow = s.flow ∧ (s.writeHouse i v).1.ctl = s.ctl ∧
    (s.writeHouse i v).1.free = s.free ∧ (s.writeHouse i v).1.pending = s.pending := by
  unfold State.writeHouse
  try dsimp only [storeIf, acceptRow, asDone, withItem, withLength, State.eachSelected, bare]
  (repeat' split) <;> simp

@[simp] theorem State.writePins_frame (v : BitVec 64) :
    (s.writePins v).1.inReset = s.inReset ∧ (s.writePins v).1.osc = s.osc ∧ (s.writePins v).1.servo = s.servo ∧
    (s.writePins v).1.paths = s.paths ∧ (s.writePins v).1.classifier = s.classifier ∧
    (s.writePins v).1.correction = s.correction ∧ (s.writePins v).1.gens = s.gens ∧
    (s.writePins v).1.lines = s.lines ∧ (s.writePins v).1.flow = s.flow ∧ (s.writePins v).1.ctl = s.ctl ∧
    (s.writePins v).1.free = s.free ∧ (s.writePins v).1.pending = s.pending := by
  unfold State.writePins
  try dsimp only [storeIf, acceptRow, asDone, withItem, withLength, State.eachSelected, bare]
  (repeat' split) <;> simp

@[simp] theorem State.writeExponent_frame (v : BitVec 64) :
    (s.writeExponent v).1.inReset = s.inReset ∧ (s.writeExponent v).1.osc = s.osc ∧
    (s.writeExponent v).1.servo = s.servo ∧ (s.writeExponent v).1.classifier = s.classifier ∧
    (s.writeExponent v).1.correction = s.correction ∧ (s.writeExponent v).1.sources = s.sources ∧
    (s.writeExponent v).1.gens = s.gens ∧ (s.writeExponent v).1.lines = s.lines ∧
    (s.writeExponent v).1.flow = s.flow ∧ (s.writeExponent v).1.ctl = s.ctl ∧
    (s.writeExponent v).1.free = s.free ∧ (s.writeExponent v).1.pending = s.pending := by
  unfold State.writeExponent
  try dsimp only [storeIf, acceptRow, asDone, withItem, withLength, State.eachSelected, bare]
  (repeat' split) <;> simp

@[simp] theorem State.writeWindowLength_frame (v : BitVec 64) :
    (s.writeWindowLength v).1.inReset = s.inReset ∧ (s.writeWindowLength v).1.osc = s.osc ∧
    (s.writeWindowLength v).1.servo = s.servo ∧ (s.writeWindowLength v).1.classifier = s.classifier ∧
    (s.writeWindowLength v).1.correction = s.correction ∧ (s.writeWindowLength v).1.gens = s.gens ∧
    (s.writeWindowLength v).1.lines = s.lines ∧ (s.writeWindowLength v).1.flow = s.flow ∧
    (s.writeWindowLength v).1.ctl = s.ctl ∧ (s.writeWindowLength v).1.free = s.free ∧
    (s.writeWindowLength v).1.pending = s.pending := by
  unfold State.writeWindowLength
  try dsimp only [storeIf, acceptRow, asDone, withItem, withLength, State.eachSelected, bare]
  (repeat' split) <;> simp

@[simp] theorem State.writeFlowEnable_frame (v : BitVec 64) :
    (s.writeFlowEnable v).1.inReset = s.inReset ∧ (s.writeFlowEnable v).1.osc = s.osc ∧
    (s.writeFlowEnable v).1.servo = s.servo ∧ (s.writeFlowEnable v).1.paths = s.paths ∧
    (s.writeFlowEnable v).1.classifier = s.classifier ∧ (s.writeFlowEnable v).1.correction = s.correction ∧
    (s.writeFlowEnable v).1.sources = s.sources ∧ (s.writeFlowEnable v).1.gens = s.gens ∧
    (s.writeFlowEnable v).1.lines = s.lines ∧ (s.writeFlowEnable v).1.ctl = s.ctl ∧
    (s.writeFlowEnable v).1.free = s.free ∧ (s.writeFlowEnable v).1.pending = s.pending := by
  unfold State.writeFlowEnable
  try dsimp only [storeIf, acceptRow, asDone, withItem, withLength, State.eachSelected, bare]
  (repeat' split) <;> simp

@[simp] theorem State.writeDestination_frame (v : BitVec 64) :
    (s.writeDestination v).1.inReset = s.inReset ∧ (s.writeDestination v).1.osc = s.osc ∧
    (s.writeDestination v).1.servo = s.servo ∧ (s.writeDestination v).1.paths = s.paths ∧
    (s.writeDestination v).1.classifier = s.classifier ∧ (s.writeDestination v).1.correction = s.correction ∧
    (s.writeDestination v).1.sources = s.sources ∧ (s.writeDestination v).1.gens = s.gens ∧
    (s.writeDestination v).1.lines = s.lines ∧ (s.writeDestination v).1.flow = s.flow ∧
    (s.writeDestination v).1.free = s.free ∧ (s.writeDestination v).1.pending = s.pending := by
  unfold State.writeDestination
  try dsimp only [storeIf, acceptRow, asDone, withItem, withLength, State.eachSelected, bare]
  (repeat' split) <;> simp

@[simp] theorem State.writeMask_frame (v : BitVec 64) :
    (s.writeMask v).1.inReset = s.inReset ∧ (s.writeMask v).1.osc = s.osc ∧ (s.writeMask v).1.servo = s.servo ∧
    (s.writeMask v).1.paths = s.paths ∧ (s.writeMask v).1.classifier = s.classifier ∧
    (s.writeMask v).1.correction = s.correction ∧ (s.writeMask v).1.sources = s.sources ∧
    (s.writeMask v).1.gens = s.gens ∧ (s.writeMask v).1.lines = s.lines ∧ (s.writeMask v).1.flow = s.flow ∧
    (s.writeMask v).1.free = s.free ∧ (s.writeMask v).1.pending = s.pending := by
  unfold State.writeMask
  try dsimp only [storeIf, acceptRow, asDone, withItem, withLength, State.eachSelected, bare]
  (repeat' split) <;> simp

@[simp] theorem State.writeControlItem_frame (n : Nat) (v : BitVec 64) :
    (s.writeControlItem n v).1.inReset = s.inReset ∧ (s.writeControlItem n v).1.osc = s.osc ∧
    (s.writeControlItem n v).1.servo = s.servo ∧ (s.writeControlItem n v).1.paths = s.paths ∧
    (s.writeControlItem n v).1.classifier = s.classifier ∧ (s.writeControlItem n v).1.correction = s.correction ∧
    (s.writeControlItem n v).1.sources = s.sources ∧ (s.writeControlItem n v).1.gens = s.gens ∧
    (s.writeControlItem n v).1.lines = s.lines ∧ (s.writeControlItem n v).1.flow = s.flow ∧
    (s.writeControlItem n v).1.free = s.free ∧ (s.writeControlItem n v).1.pending = s.pending := by
  unfold State.writeControlItem
  try dsimp only [storeIf, acceptRow, asDone, withItem, withLength, State.eachSelected, bare]
  (repeat' split) <;> simp

@[simp] theorem State.storeItem_frame (n : Nat) (v : BitVec 64) :
    (s.storeItem n v).1.inReset = s.inReset ∧ (s.storeItem n v).1.osc = s.osc ∧
    (s.storeItem n v).1.lines = s.lines ∧ (s.storeItem n v).1.free = s.free ∧
    (s.storeItem n v).1.pending = s.pending := by
  unfold State.storeItem
  try dsimp only [storeIf, acceptRow, asDone, withItem, withLength, State.eachSelected, bare]
  (repeat' split) <;> simp

@[simp] theorem State.cmdReadItem_frame (r n : Nat) : (s.cmdReadItem r n).1 = s := by
  unfold State.cmdReadItem
  (repeat' split) <;> rfl

@[simp] theorem State.cmdWriteItem_frame (n : Nat) (v : BitVec 64) :
    (s.cmdWriteItem n v).1.inReset = s.inReset ∧ (s.cmdWriteItem n v).1.osc = s.osc ∧
    (s.cmdWriteItem n v).1.lines = s.lines ∧ (s.cmdWriteItem n v).1.free = s.free ∧
    (s.cmdWriteItem n v).1.pending = s.pending := by
  unfold State.cmdWriteItem
  try dsimp only [storeIf, acceptRow, asDone, withItem, withLength, State.eachSelected, bare]
  (repeat' split) <;> simp

@[simp] theorem State.cmdSetCursor_frame (t : Byte) (r : Nat) :
    (s.cmdSetCursor t r).1.inReset = s.inReset ∧ (s.cmdSetCursor t r).1.osc = s.osc ∧
    (s.cmdSetCursor t r).1.servo = s.servo ∧ (s.cmdSetCursor t r).1.paths = s.paths ∧
    (s.cmdSetCursor t r).1.classifier = s.classifier ∧ (s.cmdSetCursor t r).1.correction = s.correction ∧
    (s.cmdSetCursor t r).1.sources = s.sources ∧ (s.cmdSetCursor t r).1.gens = s.gens ∧
    (s.cmdSetCursor t r).1.lines = s.lines ∧ (s.cmdSetCursor t r).1.flow = s.flow ∧
    (s.cmdSetCursor t r).1.free = s.free ∧ (s.cmdSetCursor t r).1.pending = s.pending := by
  unfold State.cmdSetCursor
  try dsimp only [storeIf, acceptRow, asDone, withItem, withLength, State.eachSelected, bare]
  (repeat' split) <;> simp

@[simp] theorem State.advanceCursor_frame (n : Nat) :
    (s.advanceCursor n).inReset = s.inReset ∧ (s.advanceCursor n).osc = s.osc ∧
    (s.advanceCursor n).servo = s.servo ∧ (s.advanceCursor n).paths = s.paths ∧
    (s.advanceCursor n).classifier = s.classifier ∧ (s.advanceCursor n).correction = s.correction ∧
    (s.advanceCursor n).sources = s.sources ∧ (s.advanceCursor n).gens = s.gens ∧
    (s.advanceCursor n).lines = s.lines ∧ (s.advanceCursor n).flow = s.flow ∧ (s.advanceCursor n).free = s.free ∧
    (s.advanceCursor n).pending = s.pending := by
  unfold State.advanceCursor
  try dsimp only [storeIf, acceptRow, asDone, withItem, withLength, State.eachSelected, bare]
  simp

@[simp] theorem State.cmdReadRows_frame (r n : Nat) :
    (s.cmdReadRows r n).1.inReset = s.inReset ∧ (s.cmdReadRows r n).1.osc = s.osc ∧
    (s.cmdReadRows r n).1.servo = s.servo ∧ (s.cmdReadRows r n).1.paths = s.paths ∧
    (s.cmdReadRows r n).1.classifier = s.classifier ∧ (s.cmdReadRows r n).1.correction = s.correction ∧
    (s.cmdReadRows r n).1.sources = s.sources ∧ (s.cmdReadRows r n).1.gens = s.gens ∧
    (s.cmdReadRows r n).1.lines = s.lines ∧ (s.cmdReadRows r n).1.flow = s.flow ∧
    (s.cmdReadRows r n).1.free = s.free ∧ (s.cmdReadRows r n).1.pending = s.pending := by
  unfold State.cmdReadRows
  try dsimp only [storeIf, acceptRow, asDone, withItem, withLength, State.eachSelected, bare]
  (repeat' split) <;> simp

@[simp] theorem State.writeCadence_frame (i : Nat) (w : CadenceWrite) :
    (s.writeCadence i w).1.inReset = s.inReset ∧ (s.writeCadence i w).1.osc = s.osc ∧
    (s.writeCadence i w).1.servo = s.servo ∧ (s.writeCadence i w).1.classifier = s.classifier ∧
    (s.writeCadence i w).1.correction = s.correction ∧ (s.writeCadence i w).1.sources = s.sources ∧
    (s.writeCadence i w).1.flow = s.flow ∧ (s.writeCadence i w).1.free = s.free ∧
    (s.writeCadence i w).1.pending = s.pending := by
  unfold State.writeCadence
  try dsimp only [storeIf, acceptRow, asDone, withItem, withLength, State.eachSelected, bare]
  (repeat' split) <;> simp

@[simp] theorem State.writeFlow_frame (i : Nat) (w : FlowWrite) :
    (s.writeFlow i w).1.inReset = s.inReset ∧ (s.writeFlow i w).1.osc = s.osc ∧
    (s.writeFlow i w).1.servo = s.servo ∧ (s.writeFlow i w).1.paths = s.paths ∧
    (s.writeFlow i w).1.classifier = s.classifier ∧ (s.writeFlow i w).1.correction = s.correction ∧
    (s.writeFlow i w).1.sources = s.sources ∧ (s.writeFlow i w).1.gens = s.gens ∧
    (s.writeFlow i w).1.lines = s.lines ∧ (s.writeFlow i w).1.free = s.free ∧
    (s.writeFlow i w).1.pending = s.pending := by
  unfold State.writeFlow
  try dsimp only [storeIf, acceptRow, asDone, withItem, withLength, State.eachSelected, bare]
  (repeat' split) <;> simp

@[simp] theorem State.writeRule_frame (i : Nat) (w : RuleWrite) :
    (s.writeRule i w).1.inReset = s.inReset ∧ (s.writeRule i w).1.osc = s.osc ∧
    (s.writeRule i w).1.classifier = s.classifier ∧ (s.writeRule i w).1.correction = s.correction ∧
    (s.writeRule i w).1.lines = s.lines ∧ (s.writeRule i w).1.flow = s.flow ∧ (s.writeRule i w).1.free = s.free ∧
    (s.writeRule i w).1.pending = s.pending := by
  unfold State.writeRule
  try dsimp only [storeIf, acceptRow, asDone, withItem, withLength, State.eachSelected, bare]
  (repeat' split) <;> simp

@[simp] theorem State.storeManager_frame (i : Fin 4) (m : Option Station) :
    (s.storeManager i m).inReset = s.inReset ∧ (s.storeManager i m).osc = s.osc ∧
    (s.storeManager i m).servo = s.servo ∧ (s.storeManager i m).paths = s.paths ∧
    (s.storeManager i m).classifier = s.classifier ∧ (s.storeManager i m).correction = s.correction ∧
    (s.storeManager i m).sources = s.sources ∧ (s.storeManager i m).gens = s.gens ∧
    (s.storeManager i m).lines = s.lines ∧ (s.storeManager i m).flow = s.flow ∧
    (s.storeManager i m).free = s.free ∧ (s.storeManager i m).pending = s.pending := by
  unfold State.storeManager
  try dsimp only [storeIf, acceptRow, asDone, withItem, withLength, State.eachSelected, bare]
  simp

@[simp] theorem State.writeManager_frame (i : Nat) (w : ManagerWrite) :
    (s.writeManager i w).1.inReset = s.inReset ∧ (s.writeManager i w).1.osc = s.osc ∧
    (s.writeManager i w).1.servo = s.servo ∧ (s.writeManager i w).1.paths = s.paths ∧
    (s.writeManager i w).1.classifier = s.classifier ∧ (s.writeManager i w).1.correction = s.correction ∧
    (s.writeManager i w).1.sources = s.sources ∧ (s.writeManager i w).1.gens = s.gens ∧
    (s.writeManager i w).1.lines = s.lines ∧ (s.writeManager i w).1.flow = s.flow ∧
    (s.writeManager i w).1.free = s.free ∧ (s.writeManager i w).1.pending = s.pending := by
  unfold State.writeManager
  try dsimp only [storeIf, acceptRow, asDone, withItem, withLength, State.eachSelected, bare]
  (repeat' split) <;> simp

@[simp] theorem State.storeOutput_frame (i : Fin 8) (l : OutputLine) :
    (s.storeOutput i l).inReset = s.inReset ∧ (s.storeOutput i l).osc = s.osc ∧
    (s.storeOutput i l).servo = s.servo ∧ (s.storeOutput i l).paths = s.paths ∧
    (s.storeOutput i l).classifier = s.classifier ∧ (s.storeOutput i l).correction = s.correction ∧
    (s.storeOutput i l).sources = s.sources ∧ (s.storeOutput i l).gens = s.gens ∧
    (s.storeOutput i l).flow = s.flow ∧ (s.storeOutput i l).ctl = s.ctl ∧ (s.storeOutput i l).free = s.free ∧
    (s.storeOutput i l).pending = s.pending := by
  unfold State.storeOutput
  try dsimp only [storeIf, acceptRow, asDone, withItem, withLength, State.eachSelected, bare]
  simp

@[simp] theorem State.storeInput_frame (i : Fin 4) (l : InputLine) :
    (s.storeInput i l).inReset = s.inReset ∧ (s.storeInput i l).osc = s.osc ∧ (s.storeInput i l).servo = s.servo ∧
    (s.storeInput i l).paths = s.paths ∧ (s.storeInput i l).classifier = s.classifier ∧
    (s.storeInput i l).correction = s.correction ∧ (s.storeInput i l).sources = s.sources ∧
    (s.storeInput i l).gens = s.gens ∧ (s.storeInput i l).flow = s.flow ∧ (s.storeInput i l).ctl = s.ctl ∧
    (s.storeInput i l).free = s.free ∧ (s.storeInput i l).pending = s.pending := by
  unfold State.storeInput
  try dsimp only [storeIf, acceptRow, asDone, withItem, withLength, State.eachSelected, bare]
  simp

@[simp] theorem State.writeLine_frame (i : Nat) (w : LineWrite) :
    (s.writeLine i w).1.inReset = s.inReset ∧ (s.writeLine i w).1.osc = s.osc ∧
    (s.writeLine i w).1.servo = s.servo ∧ (s.writeLine i w).1.paths = s.paths ∧
    (s.writeLine i w).1.classifier = s.classifier ∧ (s.writeLine i w).1.correction = s.correction ∧
    (s.writeLine i w).1.sources = s.sources ∧ (s.writeLine i w).1.gens = s.gens ∧
    (s.writeLine i w).1.flow = s.flow ∧ (s.writeLine i w).1.free = s.free ∧
    (s.writeLine i w).1.pending = s.pending := by
  unfold State.writeLine
  try dsimp only [storeIf, acceptRow, asDone, withItem, withLength, State.eachSelected, bare]
  (repeat' split) <;> simp

@[simp] theorem State.cmdWriteRow_frame (c : List Byte) :
    (s.cmdWriteRow c).1.inReset = s.inReset ∧ (s.cmdWriteRow c).1.osc = s.osc ∧
    (s.cmdWriteRow c).1.classifier = s.classifier ∧ (s.cmdWriteRow c).1.correction = s.correction ∧
    (s.cmdWriteRow c).1.free = s.free ∧ (s.cmdWriteRow c).1.pending = s.pending := by
  unfold State.cmdWriteRow
  try dsimp only [storeIf, acceptRow, asDone, withItem, withLength, State.eachSelected, bare]
  (repeat' split) <;> simp

@[simp] theorem State.cmdReadEvents_frame (r : Nat) : (s.cmdReadEvents r).1 = s := by
  unfold State.cmdReadEvents
  (repeat' split) <;> rfl

@[simp] theorem State.cmdClearEvents_frame (v : BitVec 32) :
    (s.cmdClearEvents v).1.inReset = s.inReset ∧ (s.cmdClearEvents v).1.osc = s.osc ∧
    (s.cmdClearEvents v).1.servo = s.servo ∧ (s.cmdClearEvents v).1.paths = s.paths ∧
    (s.cmdClearEvents v).1.classifier = s.classifier ∧ (s.cmdClearEvents v).1.correction = s.correction ∧
    (s.cmdClearEvents v).1.sources = s.sources ∧ (s.cmdClearEvents v).1.gens = s.gens ∧
    (s.cmdClearEvents v).1.lines = s.lines ∧ (s.cmdClearEvents v).1.flow = s.flow ∧
    (s.cmdClearEvents v).1.free = s.free ∧ (s.cmdClearEvents v).1.pending = s.pending := by
  unfold State.cmdClearEvents
  try dsimp only [storeIf, acceptRow, asDone, withItem, withLength, State.eachSelected, bare]
  (repeat' split) <;> simp

@[simp] theorem State.cmdServoRestart_frame :
    (s.cmdServoRestart).1.inReset = s.inReset ∧ (s.cmdServoRestart).1.osc = s.osc ∧
    (s.cmdServoRestart).1.classifier = s.classifier ∧ (s.cmdServoRestart).1.correction = s.correction ∧
    (s.cmdServoRestart).1.sources = s.sources ∧ (s.cmdServoRestart).1.gens = s.gens ∧
    (s.cmdServoRestart).1.lines = s.lines ∧ (s.cmdServoRestart).1.flow = s.flow ∧
    (s.cmdServoRestart).1.free = s.free ∧ (s.cmdServoRestart).1.pending = s.pending := by
  unfold State.cmdServoRestart
  try dsimp only [storeIf, acceptRow, asDone, withItem, withLength, State.eachSelected, bare]
  simp

@[simp] theorem State.cmdSetTime_frame (t : TimeValue) :
    (s.cmdSetTime t).1.inReset = s.inReset ∧ (s.cmdSetTime t).1.osc = s.osc ∧
    (s.cmdSetTime t).1.classifier = s.classifier ∧ (s.cmdSetTime t).1.flow = s.flow ∧
    (s.cmdSetTime t).1.pending = s.pending := by
  unfold State.cmdSetTime
  try dsimp only [storeIf, acceptRow, asDone, withItem, withLength, State.eachSelected, bare]
  (repeat' split) <;> simp

@[simp] theorem State.cmdRealign_frame (m : BitVec 16) :
    (s.cmdRealign m).1.inReset = s.inReset ∧ (s.cmdRealign m).1.osc = s.osc ∧ (s.cmdRealign m).1.servo = s.servo ∧
    (s.cmdRealign m).1.classifier = s.classifier ∧ (s.cmdRealign m).1.correction = s.correction ∧
    (s.cmdRealign m).1.sources = s.sources ∧ (s.cmdRealign m).1.flow = s.flow ∧ (s.cmdRealign m).1.free = s.free ∧
    (s.cmdRealign m).1.pending = s.pending := by
  unfold State.cmdRealign
  try dsimp only [storeIf, acceptRow, asDone, withItem, withLength, State.eachSelected, bare]
  simp

@[simp] theorem State.cmdJam_frame (m : BitVec 16) :
    (s.cmdJam m).1.inReset = s.inReset ∧ (s.cmdJam m).1.osc = s.osc ∧ (s.cmdJam m).1.servo = s.servo ∧
    (s.cmdJam m).1.paths = s.paths ∧ (s.cmdJam m).1.classifier = s.classifier ∧
    (s.cmdJam m).1.correction = s.correction ∧ (s.cmdJam m).1.sources = s.sources ∧
    (s.cmdJam m).1.lines = s.lines ∧ (s.cmdJam m).1.flow = s.flow ∧ (s.cmdJam m).1.ctl = s.ctl ∧
    (s.cmdJam m).1.free = s.free ∧ (s.cmdJam m).1.pending = s.pending := by
  unfold State.cmdJam
  try dsimp only [storeIf, acceptRow, asDone, withItem, withLength, State.eachSelected, bare]
  simp

@[simp] theorem State.cmdLines_frame (m : BitVec 8) (v : Level) :
    (s.cmdLines m v).1.inReset = s.inReset ∧ (s.cmdLines m v).1.osc = s.osc ∧ (s.cmdLines m v).1.servo = s.servo ∧
    (s.cmdLines m v).1.paths = s.paths ∧ (s.cmdLines m v).1.classifier = s.classifier ∧
    (s.cmdLines m v).1.correction = s.correction ∧ (s.cmdLines m v).1.sources = s.sources ∧
    (s.cmdLines m v).1.gens = s.gens ∧ (s.cmdLines m v).1.flow = s.flow ∧ (s.cmdLines m v).1.ctl = s.ctl ∧
    (s.cmdLines m v).1.free = s.free ∧ (s.cmdLines m v).1.pending = s.pending := by
  unfold State.cmdLines
  try dsimp only [storeIf, acceptRow, asDone, withItem, withLength, State.eachSelected, bare]
  simp

@[simp] theorem State.cmdCaptureRead_frame (r n : Nat) :
    (s.cmdCaptureRead r n).1.inReset = s.inReset ∧ (s.cmdCaptureRead r n).1.osc = s.osc ∧
    (s.cmdCaptureRead r n).1.servo = s.servo ∧ (s.cmdCaptureRead r n).1.paths = s.paths ∧
    (s.cmdCaptureRead r n).1.classifier = s.classifier ∧ (s.cmdCaptureRead r n).1.correction = s.correction ∧
    (s.cmdCaptureRead r n).1.sources = s.sources ∧ (s.cmdCaptureRead r n).1.gens = s.gens ∧
    (s.cmdCaptureRead r n).1.flow = s.flow ∧ (s.cmdCaptureRead r n).1.ctl = s.ctl ∧
    (s.cmdCaptureRead r n).1.free = s.free ∧ (s.cmdCaptureRead r n).1.pending = s.pending := by
  unfold State.cmdCaptureRead
  try dsimp only [storeIf, acceptRow, asDone, withItem, withLength, State.eachSelected, bare]
  simp

@[simp] theorem State.cmdFlowReadClear_frame (r n : Nat) :
    (s.cmdFlowReadClear r n).1.inReset = s.inReset ∧ (s.cmdFlowReadClear r n).1.osc = s.osc ∧
    (s.cmdFlowReadClear r n).1.servo = s.servo ∧ (s.cmdFlowReadClear r n).1.paths = s.paths ∧
    (s.cmdFlowReadClear r n).1.classifier = s.classifier ∧ (s.cmdFlowReadClear r n).1.correction = s.correction ∧
    (s.cmdFlowReadClear r n).1.sources = s.sources ∧ (s.cmdFlowReadClear r n).1.gens = s.gens ∧
    (s.cmdFlowReadClear r n).1.lines = s.lines ∧ (s.cmdFlowReadClear r n).1.free = s.free ∧
    (s.cmdFlowReadClear r n).1.pending = s.pending := by
  unfold State.cmdFlowReadClear
  try dsimp only [storeIf, acceptRow, asDone, withItem, withLength, State.eachSelected, bare]
  (repeat' split) <;> simp

@[simp] theorem State.cmdSoftReset_frame :
    (s.cmdSoftReset).1.inReset = s.inReset ∧ (s.cmdSoftReset).1.osc = s.osc ∧ (s.cmdSoftReset).1.servo = s.servo ∧
    (s.cmdSoftReset).1.paths = s.paths ∧ (s.cmdSoftReset).1.classifier = s.classifier ∧
    (s.cmdSoftReset).1.correction = s.correction ∧ (s.cmdSoftReset).1.sources = s.sources ∧
    (s.cmdSoftReset).1.gens = s.gens ∧ (s.cmdSoftReset).1.lines = s.lines ∧ (s.cmdSoftReset).1.flow = s.flow ∧
    (s.cmdSoftReset).1.free = s.free ∧ (s.cmdSoftReset).1.pending = s.pending := by
  unfold State.cmdSoftReset
  try dsimp only [storeIf, acceptRow, asDone, withItem, withLength, State.eachSelected, bare]
  simp

@[simp] theorem State.runEntry_frame (r : Nat) (e : Entry) :
    (s.runEntry r e).1.inReset = s.inReset ∧ (s.runEntry r e).1.osc = s.osc ∧
    (s.runEntry r e).1.pending = s.pending := by
  unfold State.runEntry
  try dsimp only [storeIf, acceptRow, asDone, withItem, withLength, State.eachSelected, bare]
  (repeat' split) <;> simp

@[simp] theorem State.carryOutSoftReset_frame :
    s.carryOutSoftReset.inReset = s.inReset ∧ s.carryOutSoftReset.osc = s.osc ∧
    s.carryOutSoftReset.classifier = s.classifier ∧ s.carryOutSoftReset.free = s.free ∧
    s.carryOutSoftReset.pending = s.pending := by
  simp [State.carryOutSoftReset]

@[simp] theorem State.endFrame_frame :
    s.endFrame.inReset = s.inReset ∧ s.endFrame.osc = s.osc ∧ s.endFrame.classifier = s.classifier ∧
    s.endFrame.free = s.free ∧ s.endFrame.pending = s.pending := by
  unfold State.endFrame
  try dsimp only [storeIf, acceptRow, asDone, withItem, withLength, State.eachSelected, bare]
  (repeat' split) <;> simp

@[simp] theorem State.finishFrame_frame (x : Execution) :
    (s.finishFrame x).inReset = s.inReset ∧ (s.finishFrame x).osc = s.osc ∧
    (s.finishFrame x).classifier = s.classifier ∧ (s.finishFrame x).free = s.free ∧
    (s.finishFrame x).pending = s.pending := by
  unfold State.finishFrame
  try dsimp only [storeIf, acceptRow, asDone, withItem, withLength, State.eachSelected, bare]
  simp

@[simp] theorem State.runNext_frame (x : Execution) (e : Entry) (l : List Entry) :
    (s.runNext x e l).inReset = s.inReset ∧ (s.runNext x e l).osc = s.osc ∧
    (s.runNext x e l).pending = s.pending := by
  unfold State.runNext
  try dsimp only [storeIf, acceptRow, asDone, withItem, withLength, State.eachSelected, bare]
  simp

@[simp] theorem State.runEntries_frame : ∀ (n : Nat) (s : State),
    (s.runEntries n).inReset = s.inReset ∧ (s.runEntries n).osc = s.osc ∧ (s.runEntries n).pending = s.pending
  | 0, _ => ⟨rfl, rfl, rfl⟩
  | n + 1, s => by
    unfold State.runEntries
    split
    · simp
    · split
      · simp
      · have h := fun x e rest => State.runEntries_frame n (s.runNext x e rest)
        simp [h]

@[simp] theorem State.takeControl_frame (n : Nat) :
    (s.takeControl n).inReset = s.inReset ∧ (s.takeControl n).osc = s.osc ∧ (s.takeControl n).pending = s.pending := by
  unfold State.takeControl State.beginFrame State.goOn
  dsimp only
  (repeat' split) <;> simp

end Sys2Proof.Machine
end

