-- ==== Sys2Proof/Laws/Raise.lean ====
section
/-! SUPPORT. Everything that raising an event can do, said once (`State.raise_raised`), with its chaining over several
events, and the laws of per-path values. -/

namespace Sys2Proof.Machine

/-! ## Per-path values -/

@[simp] theorem PerPath.get_set_same {α : Type} (x : PerPath α) (p : Path) (v : α) : (x.set p v).get p = v := by
  cases p <;> rfl

theorem PerPath.get_set_other {α : Type} (x : PerPath α) {p q : Path} (h : p ≠ q) (v : α) :
    (x.set p v).get q = x.get q := by
  cases p <;> cases q <;> first | rfl | exact absurd rfl h

@[simp] theorem PerPath.get_map {α β : Type} (f : α → β) (x : PerPath α) (p : Path) : (x.map f).get p = f (x.get p) := by
  cases p <;> rfl

@[simp] theorem PerPath.set_get {α : Type} (x : PerPath α) (p : Path) : x.set p (x.get p) = x := by
  cases p <;> rfl

/-! ## Notices on a path -/

theorem PathState.NoticeOnly.refl (a : PathState) : a.NoticeOnly a := rfl

theorem PathState.NoticeOnly.trans {a b c : PathState} (h : a.NoticeOnly b) (k : b.NoticeOnly c) : a.NoticeOnly c := by
  unfold PathState.NoticeOnly at *
  rw [k, h]

theorem PathState.scan_arb (i : Instant) (r : Requester) (p : PathState) : p.NoticeOnly (p.serve i r) := by
  unfold PathState.NoticeOnly PathState.serve
  cases r
  · simp only [PathState.beginThrough]
    split
    · rfl
    · split <;> rfl
  · simp only [PathState.beginTime]
    split
    · rfl
    · simp only [Measure.departed]
      split
      · split <;> rfl
      · rfl
  · simp only [PathState.beginMgmt]
    split <;> rfl

theorem PathState.takeTurns_noticeOnly : ∀ (n : Nat) (p : PathState), p.NoticeOnly (p.takeTurns n).2
  | 0, _ => rfl
  | n + 1, p => by
    unfold PathState.takeTurns
    dsimp only
    split
    · rfl
    · refine PathState.NoticeOnly.trans ?_ (PathState.takeTurns_noticeOnly n _)
      rfl

/-- A decision point changes the path only as a notice may. -/
theorem PathState.decision_noticeOnly (i : Instant) (p : PathState) : p.NoticeOnly (p.decision i) := by
  have h := PathState.takeTurns_noticeOnly 4 p
  unfold PathState.decision
  split
  · split
    · rename_i heq; rw [heq] at h; exact h.trans (PathState.scan_arb i _ _)
    · rename_i heq; rw [heq] at h; exact h
  · rfl

theorem PathState.becamePending_noticeOnly (i : Instant) (r : Requester) (p : PathState) :
    p.NoticeOnly (p.becamePending i r) := by
  unfold PathState.becamePending
  split
  · exact PathState.decision_noticeOnly i p
  · rfl

/-- An offer to a MGMT queue changes the path only as a notice may. -/
theorem PathState.offerMgmt_noticeOnly (i : Instant) (f : List Byte) (p : PathState) :
    p.NoticeOnly (p.offerMgmt i f).1 := by
  unfold PathState.offerMgmt
  split
  · split
    · refine PathState.NoticeOnly.trans ?_ (PathState.becamePending_noticeOnly i .mgmt _)
      rfl
    · rfl
  · rfl

/-! ## Raising -/

/-- What raising does to the control unit and the paths: the notice logic moves, and flags in `fl` may be set too. -/
structure BusMoved (x y : Bus) : Prop where
  ctl  : y.1 = { x.1 with
    flags := y.1.flags, timer := y.1.timer, pendingMark := y.1.pendingMark, heldNotice := y.1.heldNotice
    sequence := y.1.sequence, count := { x.1.count with notices := y.1.count.notices } }
  path : ∀ p, (x.2.get p).NoticeOnly (y.2.get p)

theorem BusMoved.refl (x : Bus) : BusMoved x x := ⟨rfl, fun _ => rfl⟩

theorem BusMoved.trans {x y z : Bus} (h : BusMoved x y) (k : BusMoved y z) : BusMoved x z := by
  refine ⟨?_, fun p => (h.path p).trans (k.path p)⟩
  rw [k.ctl, h.ctl]

theorem offerCopy_moved (v : NoticeView) (f : List Byte) (p : Path) (x : Bus × Bool) :
    BusMoved x.1 (offerCopy v f p x).1 ∧ (offerCopy v f p x).1.1 = x.1.1 := by
  unfold offerCopy
  split
  · refine ⟨⟨rfl, fun q => ?_⟩, rfl⟩
    by_cases h : p = q
    · subst h; simp only [PerPath.get_set_same]; exact PathState.offerMgmt_noticeOnly _ _ _
    · simp only [PerPath.get_set_other _ h]; rfl
  · exact ⟨.refl _, rfl⟩

theorem makeNotice_moved (v : NoticeView) (x : Bus) :
    BusMoved x (makeNotice v x).1 ∧ (makeNotice v x).1.1.flags = x.1.flags := by
  unfold makeNotice
  split
  · exact ⟨.refl x, rfl⟩
  · rename_i dst _
    dsimp only
    have a := offerCopy_moved v (noticeFrame v x.1 dst) .a (x, false)
    have b := offerCopy_moved v (noticeFrame v x.1 dst) .b (offerCopy v (noticeFrame v x.1 dst) .a (x, false))
    have hc : (offerCopy v (noticeFrame v x.1 dst) .b (offerCopy v (noticeFrame v x.1 dst) .a (x, false))).1.1 = x.1 :=
      b.2.trans a.2
    rw [hc]
    refine ⟨⟨rfl, fun p => (a.1.path p).trans (b.1.path p)⟩, rfl⟩

theorem noticeDue_moved {make : Bus → Bus} (h : ∀ x, BusMoved x (make x)) (x : Bus) :
    BusMoved x (noticeDue make x) := by
  unfold noticeDue
  split
  · exact ⟨rfl, fun _ => rfl⟩
  · split
    · exact ⟨rfl, fun _ => rfl⟩
    · exact h x

theorem noticeDue_flags {make : Bus → Bus} {x : Bus} {q : BitVec 24 → Prop} (h : q (make x).1.flags)
    (k : q x.1.flags) : q (noticeDue make x).1.flags := by
  unfold noticeDue
  split
  · exact k
  · split
    · exact k
    · exact h

theorem setFlag_moved {due : Bus → Bus} (h : ∀ x, BusMoved x (due x)) (e : Event) (x : Bus) :
    BusMoved x (setFlag due e x) := by
  have k : BusMoved x ({ x.1 with flags := x.1.flags ||| e.set }, x.2) := ⟨rfl, fun _ => rfl⟩
  unfold setFlag
  split
  · exact .refl x
  · dsimp only
    split
    · exact k
    · exact k.trans (h _)

/-- A flag that is set stays as it is when it is set again. -/
theorem flag_set_again : ∀ (e : Event) (f : BitVec 24), f.getLsbD e.bit = true → f ||| e.set = f := by
  intro e f h
  apply BitVec.eq_of_getLsbD_eq
  intro i hi
  rw [BitVec.getLsbD_or]
  by_cases hie : i = e.bit
  · subst hie; simp [h]
  · have : e.set.getLsbD i = false := by
      cases e <;> simp only [Event.bit] at hie <;> simp only [Event.set, Event.bit] <;> revert hie <;>
        revert i <;> decide
    simp [this]

theorem setFlag_flags {due : Bus → Bus} (e : Event) (x : Bus) (q : BitVec 24 → Prop)
    (h : ∀ y, y.1.flags = x.1.flags ||| e.set → q (due y).1.flags) (k : q (x.1.flags ||| e.set)) :
    q (setFlag due e x).1.flags := by
  unfold setFlag
  split
  · rename_i hs
    rw [flag_set_again e x.1.flags hs] at k
    exact k
  · dsimp only
    split
    · exact k
    · exact h _ rfl

theorem makeNoticeRaising_moved (v : NoticeView) (x : Bus) : BusMoved x (makeNoticeRaising v x) := by
  unfold makeNoticeRaising
  dsimp only
  split
  · exact (makeNotice_moved v x).1.trans
      (setFlag_moved (noticeDue_moved fun y => (makeNotice_moved v y).1) _ _)
  · exact (makeNotice_moved v x).1

theorem makeNoticeRaising_flags (v : NoticeView) (x : Bus) :
    (makeNoticeRaising v x).1.flags = x.1.flags ∨ (makeNoticeRaising v x).1.flags = x.1.flags ||| Event.mgmtDrop.set := by
  unfold makeNoticeRaising
  dsimp only
  have hf := (makeNotice_moved v x).2
  split
  · refine .inr (setFlag_flags (q := fun f => f = x.1.flags ||| Event.mgmtDrop.set) _ _ (fun y hy => ?_) (by rw [hf]))
    refine noticeDue_flags (q := fun f => f = x.1.flags ||| Event.mgmtDrop.set) ?_ (by rw [hy, hf])
    rw [(makeNotice_moved v y).2, hy, hf]
  · exact .inl hf

theorem raiseOn_flags (v : NoticeView) (e : Event) (x : Bus) :
    (raiseOn v e x).1.flags = x.1.flags ||| e.set ∨
      (raiseOn v e x).1.flags = x.1.flags ||| e.set ||| Event.mgmtDrop.set := by
  unfold raiseOn
  refine setFlag_flags (q := fun f => f = x.1.flags ||| e.set ∨ f = x.1.flags ||| e.set ||| Event.mgmtDrop.set) e x
    (fun y hy => ?_) (.inl rfl)
  refine noticeDue_flags
    (q := fun f => f = x.1.flags ||| e.set ∨ f = x.1.flags ||| e.set ||| Event.mgmtDrop.set) ?_ (.inl hy)
  have h := makeNoticeRaising_flags v y
  rw [hy] at h
  exact h

/-- Everything raising an event can do (R175, R177, R178). -/
theorem State.raise_raised (s : State) (e : Event) : Raised s e.set (s.raise e) := by
  have m := setFlag_moved (noticeDue_moved (makeNoticeRaising_moved s.noticeView)) e (s.ctl, s.paths)
  refine ⟨raiseOn_flags s.noticeView e (s.ctl, s.paths), rfl, m.ctl, m.path, fun h => ?_⟩
  have hn : s.ctl.destination.isNone = true := by rw [h]; rfl
  unfold State.raise raiseOn setFlag
  split
  · rename_i hs
    rw [flag_set_again e s.ctl.flags hs]
    rfl
  · dsimp only
    rw [hn]
    rfl

theorem Raised.refl (s : State) : Raised s 0 s :=
  ⟨.inl (by simp), rfl, rfl, fun _ => rfl, fun _ => by simp⟩

/-- Raising some flags, then others. -/
theorem Raised.trans {a b c : State} {f g : BitVec 24} (h : Raised a f b) (k : Raised b g c) : Raised a (f ||| g) c := by
  refine ⟨?_, ?_, ?_, fun p => (h.path p).trans (k.path p), fun d => ?_⟩
  · have e1 : ∀ x m : BitVec 24, x ||| f ||| m ||| g = x ||| (f ||| g) ||| m := by
      intro x m; rw [BitVec.or_assoc, BitVec.or_assoc, BitVec.or_comm m g, ← BitVec.or_assoc f, ← BitVec.or_assoc]
    have e2 : ∀ x : BitVec 24, x ||| f ||| g = x ||| (f ||| g) := fun x => BitVec.or_assoc ..
    have e3 : ∀ x m : BitVec 24, x ||| m ||| m = x ||| m := by
      intro x m; rw [BitVec.or_assoc, BitVec.or_self]
    rcases h.flags with h | h <;> rcases k.flags with k | k <;> rw [k, h]
    · exact .inl (e2 _)
    · exact .inr (by rw [e2])
    · exact .inr (e1 _ _)
    · exact .inr (by rw [e1, e3])
  · rw [k.state, h.state]
  · rw [k.ctl, h.ctl]
  · have hb := h.off d
    have hd : b.ctl.destination = none := by rw [hb]; exact d
    have hc := k.off hd
    rw [hc, hb]
    simp [BitVec.or_assoc]

/-- Raising under a condition. -/
theorem State.raiseIf_raised (s : State) (b : Bool) (e : Event) :
    Raised s (if b then e.set else 0) (s.raiseIf b e) := by
  cases b
  · exact .refl s
  · exact s.raise_raised e

end Sys2Proof.Machine
end

