-- ==== Sys2Proof/Laws/Specs.lean ====
section
/-! SUPPORT. One law per shared operation: what it can do, so that later proofs cite it and need not unfold it. -/

namespace Sys2Proof.Machine

open Sys2Proof.Config

/-! ## The step -/

theorem step_front (c : Instr) (s : State) : step { s with pending := c :: s.pending } = exec c s := rfl

theorem step_idle {s : State} (h : s.pending = []) : step s = .next (idle s) := by simp [step, h]

/-- A command whose effect takes no notice of the hold, standing alone: its effect and its answer, no more (log 11). -/
theorem command_alone {s t : State} {f : State → Done} {a : Answer} (h : s.Ready)
    (held : s.ctl.hold = true → f s = (t, a))
    (free : s.ctl.hold = false → f (s.modControl fun c => { c with hold := true }) =
      (t.modControl fun c => { c with hold := true }, a))
    (hold : t.ctl.hold = s.ctl.hold)
    (still : s.ctl.hold = false → t.ctl.heldNotice = false ∧ t.ctl.softReset = false) :
    command f s = .next (t.answered a) := by
  obtain ⟨hr, -, -⟩ := h
  simp only [command, hr, State.runAlone]
  cases hs : s.ctl.hold
  · obtain ⟨e1, e2⟩ := still hs
    rw [hs] at hold
    simp only [Bool.false_eq_true, if_false, free hs]
    obtain ⟨_, _, _, _, _, _, _, _, _, _, c, _, _⟩ := t
    obtain ⟨_, _, _, _, _, _, _, _, _, _, _, _, _, _, _, _, _, _, _, _, _, _, _⟩ := c
    simp only at hold e1 e2
    subst hold e1 e2
    rfl
  · simp only [Bool.false_eq_true, if_false, if_true, held hs]; rfl

/-! ## Check sequences (R185) -/

@[simp] theorem forced_eq {α : Type} (v : Nat) (k : Nat → α) : forced v k = k v := by cases v <;> rfl

/-- The bytes enter the register one after another. -/
theorem crcBytes_eq_foldl (l : List Byte) (reg : BitVec 32) : crcBytes l reg = l.foldl crcByte reg := by
  induction l generalizing reg with
  | nil => rfl
  | cons b l ih => simp [crcBytes, ih]

/-- A byte more at the end of a number, as `beNat` reads it (R183). -/
theorem toNat_append_byte {w : Nat} (x : BitVec w) (b : Byte) : (x ++ b).toNat = x.toNat * 256 + b.toNat := by
  have h : b.toNat < 2 ^ 8 := b.isLt
  rw [BitVec.toNat_append, ← Nat.shiftLeft_add_eq_or_of_lt h, Nat.shiftLeft_eq]

theorem checkBytes_length (l : List Byte) : (checkBytes l).length = 4 := by simp [checkBytes, beBytes]

/-- Contents with their own check sequence pass the check of R28. -/
theorem checkOk_append (l : List Byte) : checkOk (l ++ checkBytes l) = true := by
  simp [checkOk, frameBody, checkBytes_length]

/-! ## Counters and clamps -/

theorem bumpBy_le (n c : Nat) : bumpBy n c ≤ counterMax := Nat.min_le_right _ _

theorem bumpBy_ge {n c : Nat} (h : c ≤ counterMax) : c ≤ bumpBy n c := by simp only [bumpBy]; omega

theorem clampInt_mem {lo hi : Int} (h : lo ≤ hi) (v : Int) : lo ≤ clampInt lo hi v ∧ clampInt lo hi v ≤ hi := by
  simp only [clampInt]; omega

theorem clampNat_mem {lo hi : Nat} (h : lo ≤ hi) (v : Nat) : lo ≤ clampNat lo hi v ∧ clampNat lo hi v ≤ hi := by
  simp only [clampNat]; omega

theorem clampInt_of_mem {lo hi v : Int} (h : lo ≤ v) (k : v ≤ hi) : clampInt lo hi v = v := by
  simp only [clampInt]; omega

/-! ## Tables -/

section Tables
variable {α β : Type} {n : Nat}

@[simp] theorem mapRows_eq_map (t : Vector α n) (f : α → β) : mapRows t f = t.map f := by
  ext i h; simp [mapRows]

@[simp] theorem mapEntries_eq_map (t : Vector (Option α) n) (f : α → α) : mapEntries t f = t.map (Option.map f) :=
  mapRows_eq_map t _

theorem modifyRow_eq_set (t : Vector α n) (i : Fin n) (f : α → α) : modifyRow t i f = t.set i (f t[i]) := rfl

/-- The row found holds something that satisfies the test, and no lower row does. -/
theorem findRow_some {t : Vector (Option α) n} {p : α → Bool} {i : Fin n} (h : findRow t p = some i) :
    (∃ x, t[i] = some x ∧ p x = true) ∧ ∀ j < i, (t[j]).any p = false := by
  obtain ⟨h1, as, bs, hab, h2⟩ := List.find?_eq_some_iff_append.mp h
  refine ⟨Option.any_eq_true_iff_get _ _ |>.mp h1 |> fun ⟨u, v⟩ => ⟨_, (Option.some_get u).symm, v⟩, fun j hj => ?_⟩
  have hmem : j ∈ List.finRange n := List.mem_finRange j
  have hs : (List.finRange n).Pairwise (· < ·) := List.pairwise_lt_finRange n
  rw [hab] at hmem hs
  rcases List.mem_append.mp hmem with k | k
  · simpa using h2 j k
  · exfalso
    rcases List.mem_cons.mp k with rfl | k
    · exact absurd hj (Fin.lt_irrefl _)
    · have := (List.pairwise_cons.mp (List.pairwise_append.mp hs).2.1).1 j k
      omega

theorem findRow_none {t : Vector (Option α) n} {p : α → Bool} :
    findRow t p = none ↔ ∀ i : Fin n, (t[i]).any p = false := by
  simp [findRow, List.find?_eq_none]

theorem freeRow_some {t : Vector (Option α) n} {i : Fin n} (h : freeRow t = some i) : t[i] = none := by
  simpa using List.find?_some h

theorem freeRow_none {t : Vector (Option α) n} : freeRow t = none ↔ ∀ i : Fin n, (t[i]).isSome = true := by
  simp [freeRow, List.find?_eq_none, Option.isSome_iff_ne_none]

end Tables

/-! ## The timescale (R1, R2) -/

theorem normal_iff (t : TimeValue) :
    TimeValue.normal t = true ↔ t.sec < 281474976710656 ∧ t.ns < 1000000000 ∧ t.sub < 65536 := by
  simp [TimeValue.normal, secondsEnd, nsPerSec, unitsPerNs, and_assoc]

theorem units_ofUnits (u : Nat) : units (ofUnits u) = u := by
  simp only [units, ofUnits, unitsPerSec, unitsPerNs, nsPerSec]; omega

theorem ofUnits_normal {u : Nat} (h : u ≤ maxUnits) : TimeValue.normal (ofUnits u) = true := by
  simp only [maxUnits, secondsEnd, unitsPerSec] at h
  simp only [normal_iff, ofUnits, unitsPerSec, unitsPerNs, nsPerSec]
  omega

theorem units_le_max {t : TimeValue} (h : TimeValue.normal t = true) : units t ≤ maxUnits := by
  simp only [normal_iff] at h
  simp only [units, maxUnits, secondsEnd, unitsPerSec, nsPerSec, unitsPerNs]; omega

theorem advanceTime_units (t : TimeValue) (adv : Nat) : units (advanceTime t adv) = min (units t + adv) maxUnits :=
  units_ofUnits _

theorem advanceTime_normal (t : TimeValue) (adv : Nat) : TimeValue.normal (advanceTime t adv) = true :=
  ofUnits_normal (Nat.min_le_right _ _)

/-- The advance and the fraction carried on are together exactly the time passed at the rate in force. -/
theorem advanceOf_exact (trim : Int) (frac dt : Nat) :
    (advanceOf trim frac dt).1 * trimDenom + (advanceOf trim frac dt).2 = dt * (trimDenom + trim).toNat + frac ∧
      (advanceOf trim frac dt).2 < trimDenom := by
  simp only [advanceOf]
  exact ⟨Nat.div_add_mod' _ _, Nat.mod_lt _ (by decide)⟩

/-- A step keeps the normal form (R3). -/
theorem stepTime_normal {t : TimeValue} (h : TimeValue.normal t = true) (d : Int) :
    TimeValue.normal (stepTime t d) = true := by
  simp only [normal_iff] at h
  simp only [stepTime]
  split
  · decide
  · split
    · exact ofUnits_normal (Nat.le_refl _)
    · simp only [normal_iff, wholeNs, secondsEnd, nsPerSec] at *
      omega

/-! ## Corrections, buffers, queues, captures -/

theorem addCorrection_mem (old add : Int) :
    indexMin ≤ (addCorrection old add).1 ∧ (addCorrection old add).1 ≤ indexMax :=
  clampInt_mem (by decide) _

theorem addCorrection_exact {old add : Int} (h : (addCorrection old add).2 = false) :
    (addCorrection old add).1 = old + add := by
  simp only [addCorrection, decide_eq_false_iff_not, not_or] at *
  exact clampInt_of_mem (by omega) (by omega)

/-- Offering a frame to a through buffer keeps its limits (R41, R42). -/
theorem ThroughBuffer.offer_limits {b : ThroughBuffer} (up : Bool) (f : HeldFrame)
    (h : b.frames.length ≤ bufferFrames) (k : b.segmentsUsed ≤ segments) :
    (b.offer up f).1.frames.length ≤ bufferFrames ∧ (b.offer up f).1.segmentsUsed ≤ segments := by
  simp only [ThroughBuffer.offer]
  split
  · split
    · rename_i hr
      simp only [ThroughBuffer.hasRoom, Bool.and_eq_true, decide_eq_true_eq] at hr
      simp only [ThroughBuffer.admitFrame, ThroughBuffer.segmentsUsed, List.map_append, List.sum_append, List.length_append,
        List.map_cons, List.map_nil, List.sum_cons, List.sum_nil, List.length_cons, List.length_nil] at *
      omega
    · exact ⟨h, k⟩
  · exact ⟨h, k⟩

/-- The capture FIFO and its overflow count keep their limits (R155). -/
theorem State.offerCapture_bounded {s : State} (c : Capture) (h : s.lines.Bounded) : (s.offerCapture c).lines.Bounded := by
  simp only [State.offerCapture]
  split
  · simp only [State.raiseIf_frame, State.modLines, Lines.Bounded, List.length_append, List.length_cons, List.length_nil] at *
    omega
  · simp only [State.raise_frame, State.modLines, Lines.Bounded] at *
    omega

/-- An edge of another generator leaves a line as it is (R145). -/
theorem OutputLine.takeEdge_other {lock : Bool} {g : Fin 16} {q : Nat} {k : Int} {l : OutputLine} (h : l.cadence ≠ g) :
    l.takeEdge lock g q k = l := if_neg fun x => h x.1

/-- Taking an edge keeps the binding and the selection of a line (R145). -/
@[simp] theorem OutputLine.takeEdge_bound (lock : Bool) (g : Fin 16) (q : Nat) (k : Int) (l : OutputLine) :
    (l.takeEdge lock g q k).cadence = l.cadence ∧ (l.takeEdge lock g q k).divisor = l.divisor ∧
    (l.takeEdge lock g q k).phase = l.phase := by
  simp only [OutputLine.takeEdge, OutputLine.selectedEdge]
  split
  · split
    · exact ⟨rfl, rfl, rfl⟩
    · split
      · exact ⟨rfl, rfl, rfl⟩
      · exact ⟨rfl, rfl, rfl⟩
      · split <;> exact ⟨rfl, rfl, rfl⟩
      · exact ⟨rfl, rfl, rfl⟩
  · exact ⟨rfl, rfl, rfl⟩

end Sys2Proof.Machine
end

