-- ==== Sys2Proof/WellFormed.lean ====
section
/-! DEFINITION. Which terms of `Instr` stand for a command that can reach the part. The meanings are total and
do not need this check: an ill-formed term is a command nobody can send. -/

namespace Sys2Proof

/-- Items whose writing has a row of its own in spec/opcode_table.json; the row WRITE_ITEM stands for the
items 'with no behaviour of their own'. -/
def itemsWithOwnRow : List Nat :=
  [116, 119, 300, 301, 302, 404, 502, 503, 504, 505, 506, 507, 600, 601, 900]

/-- A received frame holds at least its check sequence; the row WRITE_ITEM names an item without a row of its
own; a row argument fits a command entry of a control frame, whose contents are at most a frame's payload. -/
def Instr.wellFormed : Instr → Bool
  | .frameReceived _ _ frame => 4 ≤ frame.length
  | .writeItem item _ => !itemsWithOwnRow.contains item.toNat
  | .writeRow content => content.length ≤ 9186
  | _ => true

end Sys2Proof
end

