-- ==== Sys2Proof/Tests/Slice0.lean ====
section
/-! SUPPORT. Tests of the model: the well-formedness check on ill-formed terms, small examples whose expected values are
the manual's worked examples and tables (each names its source), and, for every statement with hypotheses, a witness
that meets them together, clause by clause at boundary values. -/

namespace Sys2Proof.Tests

-- One theorem at a time: a hundred kernel evaluations waiting for each other at once hold a thread's stack each.
set_option Elab.async false

open Sys2Proof Sys2Proof.Machine Sys2Proof.Config

/-- The next state of an outcome. -/
def after (o : Outcome) : State :=
  match o with
  | .next t => t
  | _ => .reset

/-! ## Well-formedness: one ill-formed term for each check -/

theorem test_wellFormed_refuses_short_frame : (Instr.frameReceived 0 .na [1, 2, 3]).wellFormed = false := by decide
theorem test_wellFormed_refuses_item_with_own_row : (Instr.writeItem 116 5).wellFormed = false := by decide
theorem test_wellFormed_refuses_long_row : (Instr.writeRow (List.replicate 9187 0)).wellFormed = false := by
  rw [Instr.wellFormed, List.length_replicate]; decide
theorem test_wellFormed_accepts : (Instr.frameReceived 0 .na [1, 2, 3, 4]).wellFormed = true ∧
    (Instr.writeItem 112 5).wellFormed = true ∧ (Instr.writeRow []).wellFormed = true := by decide
theorem test_no_word_spells_a_command : decodeTableWord 32 0x12345678 = none := by decide

/-! ## States to test on -/

/-- A station, and a sender identity. -/
def stationS : Station := 0x020000000001
def senderX : Ident := 0xAABBCC0000010001

def withServo (v : Servo) : State := { State.reset with servo := v }

/-- The timescale at sec seconds and ns nanoseconds. -/
def timed (sec ns : Nat) (s : State) : State := { s with servo := { s.servo with time := ⟨sec, ns, 0⟩ } }

def upPort : PortState := { PortState.reset with up := true }

/-- All four ports UP, the station address set. -/
def live : State := { State.reset with
  paths := ⟨{ PathState.reset with net := upPort, eq := upPort }, { PathState.reset with net := upPort, eq := upPort }⟩
  ctl := { Control.reset with station := stationS } }

/-- A change to path A alone. -/
def onA (f : PathState → PathState) (s : State) : State := { s with paths := ⟨f s.paths.a, s.paths.b⟩ }

/-- A reception in progress on NA and EA, stamped 0. -/
def receiving (s : State) : State := onA (fun q => { q with
  net := { q.net with receiving := some ⟨0, 0⟩ }, eq := { q.eq with receiving := some ⟨0, 0⟩ } }) s

/-! ## Frames (chapter 12) -/

def ethernet (dst src : Station) (etype : Nat) (payload : List Byte) : List Byte :=
  sealFrame (putBits 6 dst ++ putBits 6 src ++ beBytes 2 etype ++ payload)

def plainFrame : List Byte := ethernet 1 2 0x1234 [9]

/-- An SCX message of version 1: kind, domain, form flag, sequence, sender, body. -/
def scxFrame (kind domain flags seq : Nat) (sender : Ident) (body : List Byte) : List Byte :=
  ethernet 1 2 scxType ([BitVec.ofNat 8 (16 + kind), BitVec.ofNat 8 domain, BitVec.ofNat 8 flags, 0] ++
    beBytes 2 (28 + body.length) ++ beBytes 2 seq ++ zeros 8 ++ putBits 8 sender ++ zeros 4 ++ body)

def beaconFrame : List Byte := scxFrame 2 0 0 7 senderX (zeros 12)
def pairedFrame : List Byte := scxFrame 2 0 1 812 senderX (zeros 12)
def detailFrame : List Byte := scxFrame 3 0 0 812 senderX (zeros 12)
def offerFrame : List Byte := scxFrame 1 0 0 1 senderX ([2, 20, 1, 44, 1, 4, 0, 37] ++ putBits 8 senderX)
def probeFrameE : List Byte := scxFrame 4 1 0 3 senderX (zeros 12)
def replyFrameA : List Byte := scxFrame 5 0 0 9 senderX (zeros 12 ++ putBits 8 (identityOf stationS .a) ++ [0, 17, 0, 0])
def controlRequest (entries : List Byte) : List Byte :=
  ethernet stationS 5 controlType ([0, 0, 17, 58] ++ beBytes 2 (8 + entries.length) ++ [0, 0] ++ entries)

/-- UDP to 239.10.0.5 port 5004 (R36). -/
def mediaFrame : List Byte := ethernet 1 2 ipv4Type
  ([0x45, 0, 0, 40, 0, 0, 0, 0, 64, 17, 0, 0, 10, 0, 0, 1, 239, 10, 0, 5, 0, 1, 19, 140, 0, 20, 0, 0] ++ zeros 12)

/-- The flow row of the worked classification of chapter 02. -/
def flowUp : FlowRow :=
  ⟨{ FlowRow.reset.config with
      enabled := true, group := 0xEF0A0005, port := 5004, paths := ⟨true, false⟩, dirs := ⟨false, true⟩ }, .reset⟩

def liveFlow : State := { live with flow := { Flow.reset with rows := Flow.reset.rows.set 3 flowUp } }

/-! ## Formats -/

/-- The check value of this sequence's well-known check string, "123456789" (R185: polynomial 04C11DB7h reflected). -/
theorem test_check_sequence : crc32 [0x31, 0x32, 0x33, 0x34, 0x35, 0x36, 0x37, 0x38, 0x39] = 0xCBF43926#32 := by
  decide +kernel
/-- R185: the same check value, sent least significant byte first. -/
theorem test_frame_check : frameCheck [0x31, 0x32, 0x33, 0x34, 0x35, 0x36, 0x37, 0x38, 0x39] = [0x26, 0x39, 0xF4, 0xCB] := by
  decide +kernel
/-- R183: signed values in two's complement, none in a signed field its most negative value. -/
theorem test_numbers : putInt 2 (-2) = [0xFF, 0xFE] ∧ putInt? 2 none = [0x80, 0] ∧ putNat? 2 none = [0xFF, 0xFF] ∧
    signedAt [0xFF, 0xFE] 0 2 = -2 := by decide
/-- Kinds of the worked classification of chapter 02: frames 2, 3, 6, 8, 10, 11, 12, 14. -/
theorem test_worked_classification :
    live.kindOf .na pairedFrame ⟨0, 0⟩ = .listened ∧ live.kindOf .na detailFrame ⟨0, 0⟩ = .listened ∧
    live.kindOf .na replyFrameA ⟨0, 0⟩ = .ownReply ∧ live.kindOf .na (controlRequest []) ⟨0, 0⟩ = .control ∧
    live.kindOf .ea probeFrameE ⟨0, 0⟩ = .passingScx ∧ live.kindOf .ea beaconFrame ⟨0, 0⟩ = .foreignTime ∧
    liveFlow.kindOf .ea mediaFrame ⟨0, 0⟩ = .media ∧ live.kindOf .ea (controlRequest []) ⟨0, 0⟩ = .refusedControl := by
  decide +kernel
/-- Marks of the worked classification: a paired Beacon downstream and a Probe upstream, not a Beacon upstream. -/
theorem test_worked_marks : live.markOf .na pairedFrame = true ∧ live.markOf .ea probeFrameE = true ∧
    live.markOf .ea beaconFrame = false ∧ live.markOf .na offerFrame = false := by decide +kernel

/-! ## Worked examples, one step each -/

/-- Chapter 01, worked servo sequence: the first offset steps the timescale. -/
theorem test_worked_step : ((timed 1000 0 State.reset).offsetArrival 250000).servo.state = .acquire ∧
    ((timed 1000 0 State.reset).offsetArrival 250000).servo.quiet = 4 ∧
    ((timed 1000 0 State.reset).offsetArrival 250000).servo.count.stepsTaken = 1 ∧
    ((timed 1000 0 State.reset).offsetArrival 250000).servo.time = ⟨999, 999750000, 0⟩ := by decide +kernel
/-- Chapter 01, converging at stage 0: the first two rows of the table. -/
theorem test_worked_pi_law : (Servo.reset.piLaw 800).acc = -800 ∧ (Servo.reset.piLaw 800).trim = -13600 ∧
    ((Servo.reset.piLaw 800).piLaw 600).acc = -1400 ∧ ((Servo.reset.piLaw 800).piLaw 600).trim = -11000 := by decide
/-- Chapter 01: at stage 5 an offset of +10 takes accumulator and trim from -2,600 to -2,601 and -2,606. -/
theorem test_worked_pi_law_stage5 : (({ Servo.reset with stage := 5, acc := -2600 } : Servo).piLaw 10).acc = -2601 ∧
    (({ Servo.reset with stage := 5, acc := -2600 } : Servo).piLaw 10).trim = -2606 := by decide
/-- R2: a trim of -1,600,000 tu slows the timescale by 100 µs in each second. -/
theorem test_trim_slows : (after (exec (.timescaleHold (1000000000 * 65536))
    (withServo { Servo.reset with trim := -1600000 }))).servo.time = ⟨0, 999900000, 0⟩ := by decide +kernel

/-- Chapter 03, the admission example: 54 segments used, 9,000 bytes need 36, 1,000 bytes 4. -/
theorem test_admission_segments : (9000 + 255) / 256 = 36 ∧ frameSegments [0] = 1 ∧ ¬ 54 + 36 ≤ segments ∧ 54 + 4 ≤ segments := by
  decide
/-- Chapter 03, worked arbiter run: the queues of decision 1, and decisions 1 to 3 by the frames served. -/
def runStart : PathState := { PathState.reset with
  net := upPort
  up := { ThroughBuffer.reset with frames := [⟨[1], .through, false, ⟨0, 0⟩⟩, ⟨[2], .through, false, ⟨0, 0⟩⟩] }
  queues := { Injection.reset with time := some ⟨[3], 0⟩, mgmt := [[4], [5]] } }
def served (p : PathState) : Option Requester := p.net.sending.map (·.source)
def decided1 : PathState := runStart.decision ⟨0, 0⟩
def decided2 : PathState := (decided1.sentNet .time).decision ⟨0, 0⟩
def decided3 : PathState := (decided2.sentNet .through).decision ⟨0, 0⟩
theorem test_worked_arbiter : served decided1 = some .time ∧ decided1.arb.turn = .lp ∧ served decided2 = some .through ∧
    decided2.arb.lpSnap = ⟨false, false, true⟩ ∧ served decided3 = some .mgmt ∧ decided3.arb.turn = .hp ∧
    decided3.arb.skips = 0 := by decide
/-- Chapter 04, Beacon 812: residence 1,420 ns, that is 93,061,120 correction units. -/
theorem test_worked_residence : residence ⟨3400 * 65536, 0⟩ { upPort with egressTrim := 8 }
    ⟨ingressTime ⟨2000 * 65536, 0⟩ { upPort with ingressTrim := 12 }, 0⟩ = 93061120 := by decide
/-- Chapter 06, the second sample: the estimate is 210,862,080 units. -/
theorem test_worked_estimate : delayEstimate [3225 * 65536, 3210 * 65536] = some 210862080 := by decide

/-- Chapter 07, worked edges at 59.94 Hz. -/
def e1 : GenConfig := ⟨true, 60000, 1001, 0, .off⟩
theorem test_worked_edges : e1.gap = 16683333 ∧ e1.gapRemainder = 20000 ∧ e1.startIndex 1000000000000 = 59941 ∧
    e1.edgeAt 59941 = 1000015683333 ∧ e1.remainderAt 59941 = 20000 ∧ e1.edgeAt 59943 = 1000049050000 ∧
    e1.startIndex 1000110000000 = 59947 := by decide
/-- Chapter 08, the drop-frame conversions. -/
def df30 : LabelMath := ⟨30, 2, 1798, 17982, 2589408⟩
theorem test_worked_labels : df30.label 1799 = ⟨0, 0, 59, 29, true⟩ ∧ df30.label 1800 = ⟨0, 1, 0, 2, true⟩ ∧
    df30.label 17982 = ⟨0, 10, 0, 0, true⟩ ∧ df30.label 1000000 = ⟨9, 16, 6, 22, true⟩ ∧
    df30.label 2589407 = ⟨23, 59, 59, 29, true⟩ := by decide
/-- Chapter 08, the day's end: the jam instant of 19,462 lies on edge 50,395,110,000, the next jam edge 2,589,411 on. -/
theorem test_worked_jam : jamAfter (jamDisplacement 37 0 0) 1681516836000000000 = 1681516837000000000 ∧
    (⟨true, 30000, 1001, 0, .df⟩ : GenConfig).firstAtOrAfter 1681516837000000000 = some 50395110000 ∧
    (⟨true, 30000, 1001, 0, .df⟩ : GenConfig).firstAtOrAfter 1681603237000000000 = some 50397699411 := by decide
/-- Chapter 09, worked capture phases: both sides of a midpoint, and a tie. -/
theorem test_worked_phases : phaseOf 1000024024999 1000015683333 1000032366666 = 8341666 ∧
    phaseOf 1000024025000 1000015683333 1000032366666 = -8341666 ∧
    phaseOf 1000040708333 1000032366666 1000049050000 = 8341667 := by decide
/-- Chapter 09: a stored width of 30,000 ns on a 48000/1 generator drives 20,833 - 16 ns. -/
theorem test_worked_width : ({ OutputLine.reset 0 with width := 30000 } : OutputLine).effectiveWidth 20833 = 20817 := by
  decide
/-- Chapter 10, worked flow measurement: X and the offsets of the first and the fourth datagram. -/
theorem test_worked_flow : ({ flowUp.config with rate := 90000 } : FlowConfig).expected (1000015683333 * 65536) = 90001411 ∧
    mediaOffset 90001321 90001411 = -90 ∧ mediaOffset 90001802 90001800 = 2 := by decide

/-! ## Commands, one step each -/

def lastOf (c : Instr) (s : State) : Option Answer := (after (exec c s)).ctl.lastResult

/-- R22 and item 116: the trim limit reads 1,600,000 after reset. -/
theorem test_read_item : lastOf (.readItem 116) .reset = some ⟨.ok, [0, 0, 0, 0, 0, 0x18, 0x6A, 0]⟩ := by decide
/-- Chapter 11, worked exchange, commands 10 and 9: item 777 is none, item 100 is read-only. -/
theorem test_write_item_refusals : lastOf (.readItem 777) .reset = some ⟨.noItem, []⟩ ∧
    lastOf (.writeItem 100 5) .reset = some ⟨.readOnly, []⟩ := by decide
/-- Chapter 11, worked exchange, commands 1 and 2: path select BOTH, and -9 clamped to -7 on both paths. -/
theorem test_probe_exponent_clamped :
    (after (exec (.writeProbeIntervalExponent (BitVec.ofInt 64 (-9))) (after (exec (.writeItem 1004 2) .reset)))).paths.a.measure.exponent = -7 ∧
    (after (exec (.writeProbeIntervalExponent (BitVec.ofInt 64 (-9))) (after (exec (.writeItem 1004 2) .reset)))).paths.b.measure.exponent = -7 := by
  decide
/-- Chapter 11, worked exchange, command 4 with path select B: the window length of path B alone. -/
theorem test_window_length_of_selected_path :
    (after (exec (.writeDelayWindowLength 4) (after (exec (.writeItem 1004 1) .reset)))).paths.b.measure.windowLength = 4 ∧
    (after (exec (.writeDelayWindowLength 4) (after (exec (.writeItem 1004 1) .reset)))).paths.a.measure.windowLength = 8 := by
  decide
/-- Chapter 11, worked exchange, command 11: RULES has no row 8. -/
theorem test_set_cursor : lastOf (.setCursor 3 8) .reset = some ⟨.badValue, []⟩ ∧
    (after (exec (.setCursor 3 7) .reset)).ctl.row = 7 := by decide
/-- R20: a written trim limit below the present trim pulls it in. -/
theorem test_trim_limit_pulls : (after (exec (.writeTrimLimit 100) (withServo { Servo.reset with trim := -500, acc := 200 }))).servo.trim = -100 ∧
    (after (exec (.writeTrimLimit 100) (withServo { Servo.reset with trim := -500, acc := 200 }))).servo.acc = 100 := by
  decide
/-- R48: MASKED is refused for THROUGH, taken for TIME. -/
theorem test_arbiter_class : lastOf (.writeArbiterClass .through 2) .reset = some ⟨.badValue, []⟩ ∧
    (after (exec (.writeArbiterClass .time 2) .reset)).paths.a.arb.timeClass = .masked := by decide
/-- R90: a zone offset that is no multiple of 900 s is refused; a legal one is stored. -/
theorem test_house_item : lastOf (.writeHouseItem .zoneOffset 901) .reset = some ⟨.badValue, []⟩ ∧
    (after (exec (.writeHouseItem .zoneOffset 3600) .reset)).sources.house.zone = 3600 := by decide
/-- R112: 23.976 is written as 24000/1001; drop-frame is refused for it. -/
theorem test_cadence_write :
    ((after (exec (.writeRowCadence ⟨0, 0, 60000, 1001, 0⟩) (timed 1000 0 .reset))).gens[0]).next = some 59941 ∧
    lastOf (.writeRowCadence ⟨0, 2, 24000, 1001, 0⟩) .reset = some ⟨.badValue, []⟩ := by decide
/-- R158: lo above hi is BAD_VALUE. -/
theorem test_flow_write :
    lastOf (.writeRowFlow ⟨0, 1, 1, 4, 0xEF140107, 5004, 100, 90000, 0, 1, 0⟩) (after (exec (.setCursor 1 3) .reset)) = some ⟨.badValue, []⟩ ∧
    lastOf (.writeRowFlow ⟨0, 1, 1, 4, 0xEF140107, 5004, 100, 90000, 0, 0, 0⟩) (after (exec (.setCursor 1 3) .reset)) = some ⟨.ok, []⟩ := by
  decide
/-- R19: SET_TIME is STATE outside FREERUN, and exact in it. -/
theorem test_set_time : lastOf (.setTime 1000 5 7) (withServo { Servo.reset with state := .acquire }) = some ⟨.state, []⟩ ∧
    (after (exec (.setTime 1000 5 7) .reset)).servo.time = ⟨1000, 5, 7⟩ := by decide
/-- R18: the trim takes the accumulator, has-locked is cleared. -/
theorem test_servo_restart :
    (after (exec .servoRestart (withServo { Servo.reset with trim := 9, acc := 4, hasLocked := true }))).servo.trim = 4 := by
  decide
/-- R149: LINE_SET reaches a STATIC line alone (LO0 STATIC, LO1 IDLE). -/
def staticLine : State := { State.reset with lines := { Lines.reset with
  outputs := Lines.reset.outputs.set 0 { OutputLine.reset 0 with mode := .static } } }
theorem test_line_set : ((after (exec (.lineSet 3) staticLine)).lines.outputs[0]).state = .active ∧
    ((after (exec (.lineSet 3) staticLine)).lines.outputs[1]).state = .inactive := by decide
/-- R175: READ_EVENTS shows the flags as a set, CLEAR_EVENTS clears those named. -/
def flagged : State := { State.reset with ctl := { Control.reset with flags := Event.sourceChanged.set ||| Event.linkChange.set } }
theorem test_events : lastOf .readEvents flagged = some ⟨.ok, [0, 0, 8, 0x20]⟩ ∧
    (after (exec (.clearEvents 0x20) flagged)).ctl.flags = Event.linkChange.set := by decide
/-- R181: SOFT_RESET keeps configuration and clears the event flags. -/
theorem test_soft_reset : (after (exec .softReset flagged)).ctl.flags = 0 ∧
    (after (exec .softReset (withServo { Servo.reset with stepThreshold := 5000 }))).servo.stepThreshold = 5000 := by decide
/-- R179, profile 01: E1 runs at 50/1, LO2 in SQUARE; both straps HIGH give 1/1 at E3. -/
theorem test_profiles : ((after (exec (.resetRelease false true) .reset)).gens[1]).config.n = 50 ∧
    ((after (exec (.resetRelease false true) .reset)).lines.outputs[2]).mode = .square ∧
    ((after (exec (.resetRelease true true) .reset)).gens[3]).config.n = 1 := by decide
/-- R23, R24: LINK_UP at 25 Gb/s raises LINK_CHANGE; LINK_DOWN raises it too. -/
theorem test_links : (after (exec (.linkUp 0 .nb .g25) .reset)).paths.b.net.speed = .g25 ∧
    (after (exec (.linkUp 0 .nb .g25) .reset)).ctl.flags = Event.linkChange.set ∧
    (after (exec (.linkDown 0 .ea) live)).paths.a.eq.up = false := by decide
/-- R26: the ingress timestamp is the timescale less the ingress trim (NA trim +12 ns, chapter 04). -/
theorem test_start_marker : ((after (exec (.ingressStartMarker 0 .na)
    (timed 1000 2000 (onA (fun q => { q with net := { q.net with ingressTrim := 12 } }) live)))).paths.a.net.receiving) =
    some ⟨(1000000000000 + 1988) * 65536, 0⟩ := by decide
/-- R28: a frame whose check sequence fails is a check drop; a sound one is received and handed on. -/
theorem test_reception : (after (exec (.frameReceived 0 .na [1, 2, 3, 4, 5]) (receiving live))).paths.a.net.checkDrops = 1 ∧
    (after (exec (.frameReceived 0 .na plainFrame) (receiving live))).paths.a.down.frames.map (·.bytes) = [plainFrame] := by
  decide +kernel
/-- R153, R155: a selected transition is recorded, and CAPTURE_READY raised. -/
def picking : State := { State.reset with lines := { Lines.reset with inputs := Lines.reset.inputs.set 0 ⟨.rising, none, false⟩ } }
theorem test_input : (after (exec (.inputTransition 0 0 .rising) picking)).lines.fifo.length = 1 ∧
    (after (exec (.inputTransition 0 0 .rising) picking)).ctl.flags = Event.captureReady.set ∧
    (after (exec (.inputTransition 0 0 .falling) picking)).lines.fifo = [] := by decide
/-- The frames that the part builds, of O35, O42 and O44: a Probe, a notice of no flags with nothing selected, and the reply
with no result entry, laid out as chapter 12 has them. -/
theorem test_built_frames :
    ((probeFrame 5 stationS (identityOf stationS .a) 0 (-7) 17 ⟨1, 2, 3⟩).drop 12).take 12 =
      [0x9C, 0x41, 0x14, 0, 0, 0xF9, 0, 40, 0, 17, 0, 0] ∧
    ((noticeFrame live.noticeView live.ctl 9).drop 12).take 20 =
      [0x9C, 0x42, 2, 0, 0, 0, 0, 24, 0, 0, 0, 0, 0, 0, 0, 0, 0, 0, 0, 0] ∧
    ((replyFrame stationS ⟨⟨.a, controlRequest [0, 4, 0, 6]⟩, true, [], [], 1⟩).drop 12).take 10 =
      [0x9C, 0x42, 1, 1, 17, 58, 0, 8, 0, 0] ∧ 64 ≤ (controlRequest [0, 4, 0, 6]).length ∧ live.ctl.sequence < 65536 ∧
    TimeValue.normal ⟨1, 2, 3⟩ = true := by decide +kernel
/-- R169 to R171: a control frame of one READ_EVENTS taken whole is answered in the MGMT queue of its port. -/
def asked : State := { live with ctl := { live.ctl with
  executing := some ⟨⟨.a, controlRequest [0, 4, 0, 6]⟩, false, [], [], 0⟩ } }
theorem test_control_frame : (after (exec (.controlFrameTaken 0 2) asked)).ctl.count.executed = 1 ∧
    (after (exec (.controlFrameTaken 0 2) asked)).paths.a.queues.mgmt.length = 1 ∧
    (after (exec (.controlFrameTaken 0 2) asked)).ctl.lastResult = some ⟨.ok, [0, 0, 0, 0]⟩ := by decide +kernel
/-- Chapter 11, the end of the worked exchange: EA goes DOWN after the last command and before the reply; the notice is
held until the reply has been offered, and then goes to both paths. -/
def lastCommandRun : State := after (exec (.controlFrameTaken 0 1) { asked with ctl := { asked.ctl with
  executing := some ⟨⟨.b, controlRequest [0, 4, 0, 6]⟩, false, [], [], 0⟩, destination := some 9, mask := 0xFFF7FC } })
def eaLost : State := after (exec (.linkDown 0 .ea) lastCommandRun)
def replyOffered : State := after (exec (.controlFrameTaken 0 0) eaLost)
theorem test_worked_exchange_end : lastCommandRun.paths.b.queues.mgmt = [] ∧ eaLost.ctl.flags = Event.linkChange.set ∧
    eaLost.ctl.heldNotice = true ∧ eaLost.paths.b.queues.mgmt = [] ∧ replyOffered.paths.b.queues.mgmt.length = 2 ∧
    replyOffered.paths.a.queues.mgmt.length = 1 ∧ replyOffered.ctl.count.notices = 1 ∧
    replyOffered.ctl.timer = some (100 * 65536000000) := by decide +kernel
/-- R156: with no room left CAPTURE_READ still reports and clears the overflow count. -/
theorem test_capture_read_without_room :
    (({ State.reset with lines := { Lines.reset with overflow := 7 } } : State).cmdCaptureRead 3 9).2 = ⟨.ok, [0, 0, 7, 0]⟩ := by
  decide
/-- R156 and R171: READ_ROWS of FLOW before a CAPTURE_READ and three bare commands fits 25 rows in 1,458 bytes of room,
4 less than without the counts; the CAPTURE_READ then finds room for them within the 1,500 bytes. -/
theorem test_room_before_capture_read :
    roomLeft 0 [⟨14, [9, 0, 0, 0]⟩, ⟨16, []⟩, ⟨16, []⟩, ⟨16, []⟩] = 1458 ∧ rowsFitting 1458 64 64 56 = 25 ∧
    roomLeft 1410 [⟨16, []⟩, ⟨16, []⟩, ⟨16, []⟩] = 58 := by decide
/-- R173: a row written with the cursor on SOURCE is READ_ONLY. R183: a none delay estimate is the most negative value. -/
theorem test_read_only_row : lastOf (.writeRowRules ⟨0, 0, 0, 0, 0, 0⟩) { State.reset with ctl := { Control.reset with table := .source } } =
    some ⟨.readOnly, []⟩ := by decide
theorem test_none_estimate : putInt? 8 (delayEstimate []) = [0x80, 0, 0, 0, 0, 0, 0, 0] := by decide

/-! ## Witnesses: each statement's hypotheses are met together, clause by clause, at boundary values

A statement whose hypotheses every state meets, or that has none, needs no witness: O1, O4, O37 and O38's constants.
Hypotheses over a received frame are shown on a frame of this file. -/

/-- O2: an empty queue. -/
theorem witness_EveryCommandAnswersAndNoRunStops : State.reset.pending = [] := rfl

/-- O3: a command of each clause in a state of reset. -/
theorem witness_NothingIsTakenInReset : State.reset.holdReset.inReset = true ∧ Instr.servoRestart ≠ .powerOn ∧
    Instr.servoRestart ≠ .resetLineAssert ∧ (∀ a b, Instr.servoRestart ≠ .resetRelease a b) ∧
    (∀ dt l e, Instr.servoRestart ≠ .inputTransition dt l e) ∧
    Instr.inputTransition 0 3 .rising = .inputTransition 0 3 .rising := by
  refine ⟨rfl, by decide, by decide, ?_, ?_, rfl⟩ <;> intros <;> simp

/-- A servo at the ends of its ranges: the timescale at its largest value, the trim at its least. -/
def edgeServo : Servo := { Servo.reset with
  time := ⟨281474976710655, 999999999, 65535⟩, frac := trimDenom - 1, trim := -1600000, acc := 1600000, stage := 5
  inWindow := 8, outlierCount := 15, quiet := 16 }
theorem servo_reset_sound : Servo.reset.Sound := by constructor <;> decide
theorem edgeServo_sound : edgeServo.Sound := by constructor <;> decide
theorem servo_reset_ranged : Servo.reset.Ranged := ⟨fun _ h => h.elim nofun nofun, by decide⟩
/-- Holdover remaining at the largest budget, and a counter at its end. -/
theorem edgeServo_ranged : ({ edgeServo with
    timer := .running (65535 * unitsPerSec)
    count := { edgeServo.count with outliers := counterMax } } : Servo).Ranged := by
  refine ⟨fun left h => ?_, by decide⟩
  rcases h with h | h <;> cases h
  exact Nat.le_refl _
/-- O5. -/
theorem witness_TimescaleAdvances : (State.reset.inReset = false ∧ State.reset.servo.Sound) ∧
    (withServo edgeServo).inReset = false ∧ (withServo edgeServo).servo.Sound :=
  ⟨⟨rfl, servo_reset_sound⟩, rfl, edgeServo_sound⟩

def servoIn (st : ServoState) (quiet : Nat) : State := withServo { Servo.reset with state := st, quiet := quiet }
/-- O6: a quiet count of 1 in each servo state; lenient HOLDOVER, where the indication was true. -/
theorem witness_QuietOffsets : 0 < (servoIn .acquire 1).servo.quiet ∧ (servoIn .acquire 1).servo.state = .acquire ∧
    (servoIn .locked 1).servo.state = .locked ∧ (servoIn .freerun 1).servo.state = .freerun ∧
    (servoIn .holdover 1).servo.state = .holdover ∧
    (withServo { Servo.reset with state := .holdover, quiet := 1, lenient := true }).servo.lenient = true := by decide

/-- O7: the threshold exactly, one outlier below the limit and at it. -/
theorem witness_Outlier : (servoIn .locked 0).servo.state = .locked ∧ (servoIn .locked 0).servo.quiet = 0 ∧
    (servoIn .locked 0).servo.outlierThreshold ≤ (10000 : Int).natAbs ∧
    (servoIn .locked 0).servo.outlierThreshold ≤ (-10000 : Int).natAbs ∧
    ¬ Servo.reset.outlierLimit ≤ 2 + 1 ∧ Servo.reset.outlierLimit ≤ 3 + 1 := by decide

def disciplined (st : ServoState) (stage inWindow : Nat) : Servo :=
  { Servo.reset with state := st, stage := stage, inWindow := inWindow }
/-- O8: each clause at the edge of its window and count, in ACQUIRE and in LOCKED; a refused step; FREERUN and lenient
HOLDOVER with quiet count 0. -/
theorem witness_PiLaw : (disciplined .acquire 0 7).quiet = 0 ∧ (disciplined .acquire 0 7).inWindow ≤ 8 ∧
    (99999 : Int).natAbs < Servo.reset.stepThreshold ∧ (9999 : Int).natAbs < Servo.reset.outlierThreshold ∧
    65536 / 4 ^ 0 ≤ (65536 : Int).natAbs ∧ (-65535 : Int).natAbs < 65536 / 4 ^ 0 ∧
    (disciplined .acquire 0 6).inWindow < 7 ∧ 7 ≤ (disciplined .acquire 4 7).inWindow ∧
    4 < max Servo.reset.startStage Servo.reset.finalStage ∧
    max Servo.reset.startStage Servo.reset.finalStage ≤ (disciplined .acquire 5 7).stage ∧
    (63 : Int).natAbs < 65536 / 4 ^ 5 ∧ (disciplined .locked 5 8).inWindow ≤ 8 ∧ Servo.reset.stepGuard = true ∧
    ({ disciplined .acquire 0 7 with hasLocked := true } : Servo).hasLocked = true ∧
    Servo.reset.stepThreshold ≤ (100000 : Int).natAbs ∧ (servoIn .freerun 0).servo.state = .freerun ∧
    (servoIn .holdover 0).servo.state = .holdover ∧
    (withServo { Servo.reset with state := .holdover, lenient := true }).servo.lenient = true := by decide

/-- O9: an offset at the step threshold, on a timescale whose step ends at 0 and at the last nanosecond, and one beyond
each; an enabled generator; a step sum that would leave its range. -/
theorem witness_LargeOffset : (servoIn .acquire 0).servo.state = .acquire ∧ (servoIn .acquire 0).servo.quiet = 0 ∧
    Servo.reset.stepThreshold ≤ (100000 : Int).natAbs ∧ (Servo.reset.stepGuard && Servo.reset.hasLocked) = false ∧
    TimeValue.normal ⟨0, 100000, 0⟩ = true ∧ 0 ≤ (wholeNs ⟨0, 100000, 0⟩ : Int) - 100000 ∧
    TimeValue.normal ⟨281474976710655, 999899999, 9⟩ = true ∧
    (wholeNs ⟨281474976710655, 999899999, 9⟩ : Int) - (-100000) = (secondsEnd * nsPerSec : Nat) - 1 ∧
    (wholeNs ⟨0, 99999, 0⟩ : Int) - 100000 < 0 ∧ TimeValue.normal ⟨281474976710655, 999900000, 0⟩ = true ∧
    ((secondsEnd * nsPerSec : Nat) : Int) ≤ (wholeNs ⟨281474976710655, 999900000, 0⟩ : Int) - (-100000) ∧
    (profileGen 1 0).config.enabled = true ∧ (profileGen 0 0).config.enabled = false ∧
    indexMax < indexMax + 100000 * 65536 := by decide

/-- O10: a timer run out in the time that passes, a stopped one, and each servo state. -/
theorem witness_Holdover :
    ((withServo { Servo.reset with state := .holdover, timer := .running 65536 }).elapse 65536).servo.timer = .running 0 ∧
    (State.reset.elapse 5).servo.timer ≠ .running 0 ∧ (servoIn .acquire 0).servo.state = .acquire ∧
    (servoIn .locked 0).servo.state = .locked ∧ (servoIn .freerun 0).servo.state = .freerun ∧
    (servoIn .holdover 0).servo.state = .holdover := by decide

/-! ### Ports, buffers, arbiter, correction -/

/-- O11: an UP port, a DOWN network-side port and a DOWN equipment-side port with nothing held. -/
theorem witness_LinkUp : live.inReset = false ∧ (live.port .na).up = true ∧ (State.reset.port .na).up = false ∧
    Port.na.isNet = true ∧ (State.reset.path .a).up.frames = [] ∧ (State.reset.path .a).queues.time = none ∧
    (State.reset.path .a).queues.mgmt = [] ∧ Port.eb.isNet = false ∧ (State.reset.path .b).down.frames = [] := by decide

/-- O12 and O13: UP and DOWN ports of each side; notices off. -/
theorem witness_LinkDown : live.inReset = false ∧ live.ctl.destination = none ∧ Port.nb.isNet = true ∧ (live.port .nb).up = true ∧
    (State.reset.port .nb).up = false ∧ Port.ea.isNet = false ∧ (live.port .ea).up = true ∧
    (State.reset.port .ea).up = false := by decide

/-- The state after reception of a sound frame, before it is classified. -/
def received (p : Port) (s : State) : State :=
  (s.elapse 0).modPort p fun q => { q with receiving := none, received := bump q.received }
def held (n : Nat) : List HeldFrame := List.replicate n ⟨[1], .through, false, ⟨0, 0⟩⟩
def upFrames (n : Nat) (s : State) : State := onA (fun q => { q with up := { q.up with frames := held n } }) s
def downFrames (n : Nat) (s : State) : State := onA (fun q => { q with
  down := { q.down with frames := held n }, eq := { q.eq with sending := some ⟨.through, [1]⟩ } }) s
def netDown (s : State) : State := onA (fun q => { q with net := { q.net with up := false } }) s
def eqDown (s : State) : State := onA (fun q => { q with eq := { q.eq with up := false } }) s

theorem plainFrame_sound : (receiveDrop plainFrame).isNone = true := by decide +kernel
/-- O14: room at 31 frames and none at 32; each clause. -/
theorem witness_Upstream : (receiving live).inReset = false ∧ ((receiving live).port .ea).up = true ∧
    ((receiving live).port .ea).receiving = some ⟨0, 0⟩ ∧ (receiveDrop plainFrame).isNone = true ∧
    (received .ea (receiving live)).kindOf .ea plainFrame ⟨0, 0⟩ = .through ∧ isScxMalformed plainFrame = false ∧
    ((received .ea (netDown (receiving live))).path .a).net.up = false ∧
    (upFrames 32 live).paths.a.up.hasRoom plainFrame = false ∧ (upFrames 31 live).paths.a.up.hasRoom plainFrame = true ∧
    (upFrames 31 live).paths.a.up.frames ≠ [] ∧ live.paths.a.up.hasRoom plainFrame = true ∧
    live.paths.a.up.frames = [] ∧ live.paths.a.net.sending = none ∧ live.paths.a.net.up = true ∧
    live.paths.a.arb.throughClass ≠ .masked := by decide +kernel
/-- O15: the same downstream. -/
theorem witness_Downstream : ((receiving live).port .na).up = true ∧ ((receiving live).port .na).receiving = some ⟨0, 0⟩ ∧
    (received .na (receiving live)).kindOf .na plainFrame ⟨0, 0⟩ = .through ∧
    ((received .na (eqDown (receiving live))).path .a).eq.up = false ∧
    (downFrames 32 live).paths.a.down.hasRoom plainFrame = false ∧
    (downFrames 31 live).paths.a.down.hasRoom plainFrame = true ∧ (downFrames 31 live).paths.a.eq.up = true ∧
    (downFrames 31 live).paths.a.eq.sending.isSome = true ∧ live.paths.a.eq.up = true ∧
    live.paths.a.down.hasRoom plainFrame = true ∧ live.paths.a.eq.sending = none ∧ live.paths.a.down.frames = [] := by
  decide +kernel

def bodyIs (f : List Byte) (test : ScxBody → Bool) : Bool := (frameScx f).any fun m => test m.body
/-- A monitor row that takes the datagram in both directions. -/
def rowBoth : FlowRow := { flowUp with config := { flowUp.config with dirs := ⟨true, true⟩ } }
def liveBoth : State := { live with flow := { Flow.reset with rows := Flow.reset.rows.set 3 rowBoth } }
theorem scxFrames_sound : (receiveDrop offerFrame).isNone = true ∧ (receiveDrop beaconFrame).isNone = true ∧
    (receiveDrop detailFrame).isNone = true ∧ (receiveDrop replyFrameA).isNone = true ∧
    (receiveDrop mediaFrame).isNone = true ∧ (receiveDrop (controlRequest [0, 4, 0, 6])).isNone = true := by decide +kernel
/-- O16: a listened Offer, Beacon and Detail, an own Reply, and a MEDIA frame on each side. -/
theorem witness_Listened :
    (received .na (receiving live)).kindOf .na offerFrame ⟨0, 0⟩ = .listened ∧
    (bodyIs offerFrame fun b => match b with | .offer _ => true | _ => false) = true ∧
    (received .na (receiving live)).kindOf .na beaconFrame ⟨0, 0⟩ = .listened ∧
    (bodyIs beaconFrame fun b => match b with | .beacon _ => true | _ => false) = true ∧
    (received .na (receiving live)).kindOf .na detailFrame ⟨0, 0⟩ = .listened ∧
    (bodyIs detailFrame fun b => match b with | .detail _ => true | _ => false) = true ∧
    (received .na (receiving live)).kindOf .na replyFrameA ⟨0, 0⟩ = .ownReply ∧
    (received .na (receiving liveBoth)).kindOf .na mediaFrame ⟨0, 0⟩ = .media ∧
    ((received .na (receiving liveBoth)).mediaOf .na mediaFrame ⟨0, 0⟩).isSome = true ∧
    (received .ea (receiving liveBoth)).kindOf .ea mediaFrame ⟨0, 0⟩ = .media ∧
    ((received .ea (receiving liveBoth)).mediaOf .ea mediaFrame ⟨0, 0⟩).isSome = true := by decide +kernel

def netSending (r : Requester) (s : State) : State :=
  onA (fun q => { q with net := { q.net with sending := some ⟨r, [1]⟩ } }) s
/-- O17: no transmission; one with the buffer's next frame unmarked, with it marked, and the last one; each source with
nothing and with a frame pending. -/
theorem witness_Transmissions : live.paths.a.eq.sending = none ∧ (downFrames 2 live).paths.a.eq.up = true ∧
    (downFrames 2 live).paths.a.eq.sending.isSome = true ∧
    (∀ f ∈ (downFrames 2 live).paths.a.down.frames.tail.head?, f.mark = false) ∧
    (downFrames 1 live).paths.a.down.frames.tail = [] ∧ (downFrames 2 live).paths.a.down.frames.tail ≠ [] ∧ live.paths.a.net.sending = none ∧
    (netSending .through (upFrames 1 live)).paths.a.net.up = true ∧
    ((netSending .through (upFrames 1 live)).paths.a.sentNet .through).anyPending = false ∧
    ((netSending .through (upFrames 2 live)).paths.a.sentNet .through).anyPending = true ∧
    ((netSending .time live).paths.a.sentNet .time).anyPending = false ∧
    ((netSending .mgmt live).paths.a.sentNet .mgmt).anyPending = false := by decide

def headed (f : List Byte) (mark : Bool) : State :=
  onA (fun q => { q with down := { q.down with frames := [⟨f, .listened, mark, ⟨0, 0⟩⟩] } }) live
/-- A residence entry of the key of `detailFrame` on path A. -/
def residenceX : ResidenceEntry := ⟨.a, senderX, 0, 812, 1420 * 65536, ⟨0, 0, 0⟩, 0, 0⟩
def withResidence (s : State) : State :=
  { s with correction := { s.correction with rows := s.correction.rows.set 5 (some residenceX) } }
/-- O18: an unmarked head; a single and a paired Beacon; a Detail with and without its entry. -/
theorem witness_MarkedFrames : ((headed plainFrame false).path .a).down.frames = [⟨plainFrame, .listened, false, ⟨0, 0⟩⟩] ∧
    ((frameScx beaconFrame).map (·.paired) = some false ∧ (frameScx pairedFrame).map (·.paired) = some true) ∧
    (bodyIs pairedFrame fun b => match b with | .beacon _ => true | _ => false) = true ∧
    ((frameScx detailFrame).bind fun m => (withResidence live).correction.findKey .a m) = some 5 ∧
    ((frameScx detailFrame).map fun m => live.correction.findKey .a m) = some none := by decide +kernel

def probing : PathState := { PathState.reset with
  up := { ThroughBuffer.reset with frames := [⟨probeFrameE, .passingScx, true, ⟨0, 0⟩⟩] }
  queues := { Injection.reset with time := some ⟨[1], 17⟩ }
  measure := { Measure.reset with record := some ⟨senderX, 17, none⟩ } }
/-- O19: a marked Probe and an unmarked frame at the head, a record of the Probe's sequence, one of another, one already
sent and none, a frame in the MGMT queue. -/
theorem witness_Probes : probing.up.frames = [⟨probeFrameE, .passingScx, true, ⟨0, 0⟩⟩] ∧
    (frameScx probeFrameE).isSome = true ∧ probing.queues.time = some ⟨[1], 17⟩ ∧
    probing.measure.record = some ⟨senderX, 17, none⟩ ∧
    ({ probing with up := { ThroughBuffer.reset with frames := [⟨plainFrame, .through, false, ⟨0, 0⟩⟩] } } : PathState).up.frames =
      [⟨plainFrame, .through, false, ⟨0, 0⟩⟩] ∧ PathState.reset.measure.record = none ∧
    (⟨senderX, 16, none⟩ : ProbeRecord).sequence ≠ 17 ∧ (⟨senderX, 17, some 0⟩ : ProbeRecord).departure.isSome = true ∧
    ({ probing with queues := { Injection.reset with mgmt := [[1], [2]] } } : PathState).queues.mgmt = [[1], [2]] := by
  decide +kernel

/-- Zeros with their check sequence. -/
def zeroFrame (n : Nat) : List Byte := zeros (n - 4) ++ checkBytes (zeros (n - 4))
theorem zeroFrame_length {n : Nat} (h : 4 ≤ n) : (zeroFrame n).length = n := by
  simp only [zeroFrame, List.length_append, checkBytes_length, zeros, List.length_replicate]; omega
theorem zeroFrame_checkOk (n : Nat) : checkOk (zeroFrame n) = true := checkOk_append _
/-- O20: lengths 63, 64, 9,216 and 9,217 with a sound check sequence, one without; UP, DOWN and nothing received. -/
theorem witness_Reception : (receiving live).inReset = false ∧ ((receiving live).port .na).up = true ∧
    ((receiving live).port .na).receiving = some ⟨0, 0⟩ ∧ (live.port .na).receiving = none ∧
    (State.reset.port .na).up = false ∧ checkOk [1, 2, 3, 4, 5] = false ∧ (zeroFrame 63).length < 64 ∧
    (checkOk (zeroFrame 64) = true ∧ 64 ≤ (zeroFrame 64).length) ∧
    (checkOk (zeroFrame 9216) = true ∧ (zeroFrame 9216).length ≤ 9216) ∧
    checkOk (zeroFrame 9217) = true ∧ 9216 < (zeroFrame 9217).length := by
  simp only [zeroFrame_checkOk]
  rw [zeroFrame_length (by omega), zeroFrame_length (by omega), zeroFrame_length (by omega), zeroFrame_length (by omega)]
  decide +kernel

/-- An SCX frame of version 1 whose length is too short for its kind (R29). -/
def malformedFrame : List Byte := scxFrame 2 0 0 7 senderX [1]
/-- O21: a frame of every kind that a clause names; a PASSING SCX frame on each side, and a malformed one. -/
theorem witness_Kinds : (received .na (receiving live)).kindOf .na probeFrameE ⟨0, 0⟩ = .passingScx ∧
    (received .ea (receiving live)).kindOf .ea probeFrameE ⟨0, 0⟩ = .passingScx ∧
    (receiveDrop probeFrameE).isNone = true ∧ (receiveDrop malformedFrame).isNone = true ∧
    (readFrame malformedFrame).etype = scxType ∧ (readFrame malformedFrame).stacked = false ∧
    (readFrame malformedFrame).payload ≠ [] ∧ scxVersion (readFrame malformedFrame).payload = 1 ∧
    scxWellFormed (readFrame malformedFrame).payload = false ∧ live.kindOf .na plainFrame ⟨0, 0⟩ = .through ∧ live.isControl (controlRequest []) = true ∧ live.kindOf .na offerFrame ⟨0, 0⟩ = .listened ∧
    live.kindOf .na replyFrameA ⟨0, 0⟩ = .ownReply ∧ live.kindOf .ea offerFrame ⟨0, 0⟩ = .foreignTime ∧
    live.kindOf .ea probeFrameE ⟨0, 0⟩ = .passingScx ∧ liveFlow.kindOf .ea mediaFrame ⟨0, 0⟩ = .media := by
  decide +kernel

def withCtl (f : Control → Control) (s : State) : State := { s with ctl := f s.ctl }
def busy (w : Option Waiting) : State := withCtl (fun c => { c with
  executing := some ⟨⟨.b, []⟩, false, [], [], 0⟩, waiting := ⟨w, none⟩ }) (receiving live)
/-- O22: an idle control unit, a free and a taken waiting place, each side, and FOREIGN TIME with the block ON and OFF. -/
theorem witness_Control : (receiving live).isControl (controlRequest [0, 4, 0, 6]) = true ∧
    (receiving live).ctl.executing = none ∧ (busy none).ctl.executing.isSome = true ∧
    (busy none).ctl.waiting.get .a = none ∧ ((busy (some ⟨⟨.a, []⟩, 0⟩)).ctl.waiting.get .a).isSome = true ∧
    ((busy none).port .na).receiving = some ⟨0, 0⟩ ∧
    (received .ea (receiving live)).kindOf .ea beaconFrame ⟨0, 0⟩ = .foreignTime ∧
    live.classifier.foreignBlock = false := by decide +kernel

def pendingOf (time : Option QueuedProbe) (mgmt : List (List Byte)) : PathState :=
  { PathState.reset with queues := { Injection.reset with time := time, mgmt := mgmt } }
/-- O23: an HP snapshot of THROUGH, stale, and of TIME and MGMT, pending, seen from pointer MGMT; one of stale members
alone. -/
theorem witness_ArbiterTurn :
    let p : PathState := { pendingOf (some ⟨[1], 0⟩) [[1]] with arb := { PathState.reset.arb with
      hpSnap := ⟨true, true, true⟩, hpPointer := .mgmt } }
    cyclicAfter .mgmt = [.through] ++ .time :: [.mgmt] ∧ p.isPending .time = true ∧ p.isPending .through = false ∧
    (p.takeTurns 4).1 = some .time ∧ (p.takeTurns 4).2.arb.hpSnap = ⟨false, false, true⟩ ∧
    ({ p with arb := { p.arb with hpSnap := ⟨true, false, false⟩ } } : PathState).isPending .through = false := by decide
/-- O23: nothing pending, one HP requester (TIME), only LP requesters (MGMT). -/
theorem witness_Arbiter : PathState.reset.anyPending = false ∧ (pendingOf (some ⟨[1], 0⟩) []).anyPending = true ∧
    (pendingOf (some ⟨[1], 0⟩) []).isPending .time = true ∧ (pendingOf (some ⟨[1], 0⟩) []).arb.classOf .time = .hp ∧
    (∀ r ∈ [Requester.through, .time, .mgmt], (pendingOf (some ⟨[1], 0⟩) []).isPending r = true → r = .time) ∧
    (∀ r ∈ [Requester.through, .time, .mgmt], (pendingOf none [[1]]).isPending r = true →
      (pendingOf none [[1]]).arb.classOf r = .lp) ∧ (pendingOf none [[1]]).anyPending = true ∧
    PathState.reset.arb.hpSnap = ⟨false, false, false⟩ ∧ PathState.reset.arb.turn = .hp := by decide

def fullResidence : State := { live with correction := { Correction.reset with
  rows := Vector.ofFn fun i => some { residenceX with sequence := i.val, place := i.val } } }
def keyX : Scx := ⟨0, true, 0, 812, 0, senderX, .probe⟩
/-- O24: the key held, a free row, a full table; an entry as old as the lifetime and a younger one. -/
theorem witness_Residence : (withResidence live).correction.findKey .a keyX = some 5 ∧
    live.correction.findKey .a keyX = none ∧ freeRow live.correction.rows = some 0 ∧
    fullResidence.correction.findKey .a keyX = none ∧ freeRow fullResidence.correction.rows = none ∧
    ((withResidence live).elapse 3276800000000).correction.rows[5] = some { residenceX with age := 3276800000000 } ∧
    live.correction.lifetime * 65536000000 = 3276800000000 ∧ (live.elapse 5).correction.rows[5] = none := by decide +kernel

/-! ### Sources and selection -/

def offerO : OfferBody := ⟨20, 300, 260, 1, senderX, 37, true, true, true, none⟩
/-- A QUALIFIED entry that lacks nothing to be eligible. -/
def entryX : SourceEntry where
  sender := senderX
  path := .a
  station := 2
  offer := offerO
  offerExp := 0
  beaconExp := some 0
  state := .qualified
  count := 8
  lastOffer := 0
  lastBeacon := some 0
  mute := false
  ruleRow := none
  rank := 128
  barred := false
  sinceOffer := 0
  sinceLost := 0
  sinceBeacon := some 0
  pending := none
  leg := none
  window := []
def entryY : SourceEntry := { entryX with sender := 5, rank := 127 }
def withSources (f : Sources → Sources) (s : State) : State := { s with sources := f s.sources }
def withEntry (i : Fin 16) (x : SourceEntry) : State → State :=
  withSources fun q => { q with table := q.table.set i (some x) }
def selecting (i : Option (Fin 16)) (revertive : Bool) : State → State :=
  withSources fun q => { q with selected := i, revertive := revertive }
def fullTable (x : SourceEntry) : State :=
  withSources (fun q => { q with table := Vector.ofFn fun i => some { x with sender := BitVec.ofNat 64 i.val } }) live

/-- O25: nothing selected, an ineligible and an eligible selection, and revertive with an entry better and none better. -/
theorem witness_Selection : live.sources.selected = none ∧ (live.bestEligible fun _ => true) = none ∧
    (selecting (some 3) false live).rowEligible 3 = false ∧
    (selecting (some 3) false (withEntry 3 entryX live)).rowEligible 3 = true ∧
    (selecting (some 3) true (withEntry 4 entryY (withEntry 3 entryX live))).rowEligible 3 = true ∧
    ((selecting (some 3) true (withEntry 4 entryY (withEntry 3 entryX live))).bestEligible fun _ => true) = some 4 ∧
    ((selecting (some 3) true (withEntry 3 entryX live)).bestEligible fun _ => true) = some 3 ∧
    firstLower entryY.quality entryX.quality = true ∧ firstLower entryX.quality entryX.quality = false ∧
    (withEntry 3 entryX live).runSelection.sources.selected = some 3 ∧
    (withEntry 3 entryX live).nextSelected ≠ (withEntry 3 entryX live).sources.selected ∧
    live.nextSelected = live.sources.selected ∧ (withEntry 3 entryX live).nextSelected = some 3 ∧
    (withEntry 3 entryX live).sources.table[3] = some entryX ∧
    (selecting (some 3) false live).nextSelected = none ∧ (selecting (some 3) false live).sources.selected = some 3 := by
  decide +kernel

/-- O26: an eligible entry with 254 steps and one with 255; entries of different keys, in a chain. -/
theorem witness_Best : (withEntry 3 { entryX with offer := { offerO with steps := 254 } } live).rowEligible 3 = true ∧
    (withEntry 3 { entryX with offer := { offerO with steps := 255 } } live).rowEligible 3 = false ∧
    entryX.sender ≠ entryY.sender ∧ entryY.better .a entryX = true ∧
    entryX.better .a { entryX with rank := 129 } = true ∧ firstLower entryY.quality entryX.quality = true ∧
    ((withEntry 4 entryY (withEntry 3 entryX live)).bestEligible fun _ => true) = some 4 := by decide +kernel

def scxOf (b : ScxBody) : Scx := ⟨0, false, 0, 7, 0, senderX, b⟩
def copyOf (m : Scx) : ScxCopy := ⟨m, 2, ⟨65536, 0⟩⟩
def offered (s : State) : State :=
  onA (fun q => { q with inbox := { Inbox.reset with offers := [copyOf (scxOf (.offer offerO))] } }) s
/-- O27: no copy; a free row; a LOST key; the qualification counts 2 and 1. -/
theorem witness_OfferCreates : live.inReset = false ∧ (live.path .a).inbox.offers = [] ∧
    ((offered live).path .a).inbox.offers = [copyOf (scxOf (.offer offerO))] ∧ ¬ live.sources.qualCount ≤ 1 ∧
    (withSources (fun q => { q with qualCount := 1 }) live).sources.qualCount ≤ 1 ∧
    (offered live).sources.findKey senderX .a = none ∧ freeRow (offered live).sources.table = some 0 ∧
    (offered (withEntry 3 { entryX with state := .lost } live)).sources.findKey senderX .a = some 3 ∧
    (offered (withEntry 3 { entryX with state := .lost } live)).sources.table[3] = some { entryX with state := .lost } := by
  decide +kernel
/-- O28: a NEW entry one Offer below the qualification count and two below; a QUALIFIED one of the same quality and of
another tier; the selected entry. -/
theorem witness_OfferUpdates :
    (offered (withEntry 3 entryX live)).sources.findKey senderX .a = some 3 ∧
    (offered (withEntry 3 entryX live)).sources.selected ≠ some 3 ∧
    (offered (selecting (some 3) false (withEntry 3 entryX live))).sources.selected = some 3 ∧
    ((offered (withEntry 3 entryX live)).elapse 0).sources.table[3] = some entryX ∧ entryX.state ≠ .lost ∧
    entryX.offer.tier = offerO.tier ∧ ({ offerO with tier := 21 } : OfferBody).tier ≠ offerO.tier ∧
    ((offered (withEntry 3 { entryX with state := .new, count := 1 } live)).elapse 0).sources.table[3] =
      some { entryX with state := .new, count := 1 } ∧ live.sources.qualCount ≤ min 8 (1 + 1) ∧
    min 8 (0 + 1) < live.sources.qualCount := by decide +kernel
/-- O29: sixteen entries, one of them LOST; two LOST equally long; none LOST and none beaten by a newcomer of rank 128; the worst beaten, and
not beaten; nothing but the selected row in use. -/
theorem witness_FullTable : (withEntry 7 { entryX with state := .lost } (fullTable entryX)).sources.longestLost = [7] ∧
    (withEntry 8 { entryX with state := .lost } (withEntry 7 { entryX with state := .lost } (fullTable entryX))).sources.longestLost =
      [7, 8] ∧
    ((fullTable entryX).sources.worst).isSome = true ∧ (fullTable entryX).sources.longestLost = [] ∧
    ((fullTable entryX).sources.standing senderX .a).2.2 = false ∧
    firstLower (qualityOf 128 { offerO with tier := 19 }) entryX.quality = true ∧
    firstLower (qualityOf 128 offerO) entryX.quality = false ∧
    (selecting (some 3) false (withEntry 3 entryX live)).sources.worst = none ∧
    (selecting (some 3) false (withEntry 3 entryX live)).sources.longestLost = [] ∧
    freeRow (fullTable entryY).sources.table = none ∧ (fullTable entryY).sources.longestLost = [] ∧
    (∀ j : Fin 16, ((fullTable entryY).sources.table[j]).all (fun y =>
      !firstLower (qualityOf ((fullTable entryY).sources.standing senderX .a).2.1 offerO) y.quality) = true) := by
  decide +kernel
/-- O29: an Offer of an unknown key waits at a full table. -/
theorem witness_FullTableOffer : (offered (fullTable entryY)).inReset = false ∧
    ((offered (fullTable entryY)).path .a).inbox.offers = [copyOf (scxOf (.offer offerO))] ∧
    (offered (fullTable entryY)).sources.findKey senderX .a = none ∧
    (∀ i : Fin 16, ((offered (fullTable entryY)).sources.table[i]).isSome = true) := by decide +kernel
/-- O30: each deadline exactly, and one unit before it; a row not in use; no mute deadline. -/
theorem witness_Deadlines : ((live.elapse 0).sources.table[3] = none) ∧
    (((withEntry 3 entryX live).elapse (3 * 65536000000000)).sources.table[3]).map (·.sinceOffer) = some (3 * expSeconds 0) ∧
    (((withEntry 3 entryX live).elapse (3 * 65536000000000 - 1)).sources.table[3]).map (·.sinceOffer) =
      some (3 * expSeconds 0 - 1) ∧
    (((withEntry 3 { entryX with state := .lost } live).elapse (64 * 65536000000000)).sources.table[3]).map
      (fun x => (x.state, x.sinceLost)) = some (.lost, 64 * expSeconds 0) ∧
    (((withEntry 3 entryX live).elapse (4 * 65536000000000)).sources.table[3]).map (·.sinceBeacon) =
      some (some (4 * expSeconds 0)) ∧
    (((withEntry 3 { entryX with sinceBeacon := none } live).elapse 9).sources.table[3]).map (·.sinceBeacon) = some none := by
  decide +kernel

/-- Path A with the selected entry of row 3, a LOST one of row 4, one of path B in row 5, and a residence of path A. -/
def severed : State := withResidence (selecting (some 3) false (withEntry 3 entryX
  (withEntry 4 { entryX with sender := 9, state := .lost, sinceLost := 65536 } (withEntry 5 { entryX with path := .b } live))))
/-- O12: entries of the lost path that are not LOST, one selected, and LOST; an entry of the other path; a residence. -/
theorem witness_LinkDown_rows : severed.inReset = false ∧ (severed.port .na).up = true ∧ severed.sources.selected = some 3 ∧
    (severed.elapse 0).sources.table[3] = some entryX ∧ entryX.path = .a ∧ entryX.state ≠ .lost ∧
    ((severed.elapse 0).sources.table[4]).map (·.state) = some .lost ∧
    ((severed.elapse 0).sources.table[5]).map (·.path) = some .b ∧
    (severed.elapse 0).correction.rows[5] = some residenceX := by decide +kernel
/-- R69, R81: LINK_DOWN of NA leaves the entry LOST in its row with SOURCE_LOST, and the residence goes uncounted in the
flags. -/
theorem test_link_loss_rows :
    let t := after (exec (.linkDown 0 .na) severed)
    t.sources.table[3] = some { entryX with state := .lost, count := 0, sinceLost := 0 } ∧ t.paths.a.sources.losses = 1 ∧
    t.correction.rows[5] = none ∧ t.paths.a.correction.orphans = 1 ∧
    t.ctl.flags = Event.linkChange.set ||| Event.sourceLost.set ||| Event.sourceChanged.set := by decide +kernel

/-! ### Measurement -/

def originAt (ns : Nat) : MessageTime := ⟨0, ns⟩
def beaconed (m : Scx) (s : State) : State :=
  onA (fun q => { q with inbox := { Inbox.reset with beacons := [copyOf m] } }) s
def stepped (s : State) : State := { s with correction := { s.correction with stepSum := 1 } }
/-- O31 and O33: no copy; a stale one; one without an entry; paired, with a Beacon already held and with none; an origin
of 999,999,999 ns and one beyond, single and paired; an entry not selected, mute and not, and selected with an empty and with a filled window. -/
theorem witness_Beacons : (live.path .a).inbox.beacons = [] ∧
    ((beaconed (scxOf (.beacon (originAt 0))) live).path .a).inbox.beacons = [copyOf (scxOf (.beacon (originAt 0)))] ∧
    (copyOf (scxOf (.beacon (originAt 0)))).stamp.stepSum ≠ (stepped live).correction.stepSum ∧
    (copyOf (scxOf (.beacon (originAt 0)))).stamp.stepSum = live.correction.stepSum ∧
    live.sources.findKey senderX .a = none ∧ (withEntry 3 entryX live).sources.findKey senderX .a = some 3 ∧
    ((withEntry 3 entryX live).elapse 0).sources.table[3] = some entryX ∧ entryX.mute = false ∧
    ({ entryX with mute := true } : SourceEntry).mute = true ∧
    ({ scxOf (.beacon (originAt 0)) with paired := true } : Scx).paired = true ∧
    (scxOf (.beacon (originAt 0))).paired = false ∧ 999999999 < (originAt 1000000000).ns ∧
    (originAt 999999999).ns ≤ 999999999 ∧ (withEntry 3 entryX live).sources.selected ≠ some 3 ∧
    (selecting (some 3) false (withEntry 3 entryX live)).sources.selected = some 3 ∧ entryX.window = [] ∧
    ({ entryX with window := [5] } : SourceEntry).window ≠ [] := by decide +kernel
/-- R99: a paired Beacon whose own origin is no time abandons the one held and is held itself. -/
theorem test_paired_bad_origin_held :
    let held : SourceEntry := { entryX with pending := some ⟨0, 6, 65536, 0, 0⟩ }
    let t := after (exec (.beaconTaken 0 .a)
      (beaconed { scxOf (.beacon (originAt 1000000000)) with paired := true } (withEntry 3 held live)))
    (t.sources.table[3]).bind (·.pending) = some ⟨0, 7, 65536, 0, 0⟩ ∧
    t.paths.a.measure.count.badOrigins = 0 ∧ t.paths.a.measure.count.abandoned = 1 := by decide +kernel
def awaiting (domain sequence : Nat) : SourceEntry := { entryX with pending := some ⟨domain, sequence, 65536, 0, 0⟩ }
def detailed (s : State) : State :=
  onA (fun q => { q with inbox := { Inbox.reset with details := [copyOf (scxOf (.detail (originAt 0)))] } }) s
/-- O32: no copy; no pending Beacon; one of another sequence, one of another domain, one of the same of both (0, 7);
an origin of 999,999,999 ns and one beyond. -/
theorem witness_Details : (live.path .a).inbox.details = [] ∧
    ((detailed live).path .a).inbox.details = [copyOf (scxOf (.detail (originAt 0)))] ∧
    (copyOf (scxOf (.detail (originAt 0)))).stamp.stepSum = (detailed live).correction.stepSum ∧
    (detailed (withEntry 3 (awaiting 0 7) live)).sources.findKey senderX .a = some 3 ∧
    ((detailed (withEntry 3 (awaiting 0 7) live)).elapse 0).sources.table[3] = some (awaiting 0 7) ∧
    (awaiting 0 7).mute = false ∧ ({ awaiting 0 7 with mute := true } : SourceEntry).mute = true ∧ entryX.pending = none ∧
    (awaiting 0 6).pending.map (·.sequence) = some 6 ∧ (awaiting 0 7).pending.map (·.sequence) = some 7 ∧
    (awaiting 1 7).pending.map (·.domain) = some 1 ∧ (awaiting 0 7).pending.map (·.domain) = some 0 ∧
    ((detailed (withEntry 3 (awaiting 1 7) live)).elapse 0).sources.table[3] = some (awaiting 1 7) ∧
    (scxOf (.detail (originAt 0))).sequence = 7 ∧ (scxOf (.detail (originAt 0))).domain = 0 ∧
    999999999 < (originAt 1000000000).ns ∧ (originAt 999999999).ns ≤ 999999999 ∧
    (detailed (withEntry 3 (awaiting 0 7) live)).sources.selected ≠ some 3 := by
  decide +kernel
/-- R57: a Detail of another domain is not the held Beacon's; of the same domain it is (log 44). -/
theorem test_detail_of_other_domain_ignored :
    let of := fun domain => after (exec (.detailTaken 0 .a) (detailed (withEntry 3 (awaiting domain 7) live)))
    (of 1).paths.a.measure.count.detailsIgnored = 1 ∧ ((of 1).sources.table[3]).bind (·.pending) = (awaiting 1 7).pending ∧
    (of 0).paths.a.measure.count.completed = 1 ∧ ((of 0).sources.table[3]).bind (·.pending) = none := by decide +kernel
/-- R99, R100: a paired Beacon whose approximate origin is no time is completed by its Detail, whose origin is one
(log 43). -/
theorem test_untimed_paired_beacon_is_completed :
    let b := after (exec (.beaconTaken 0 .a)
      (beaconed { scxOf (.beacon (originAt 1000000000)) with paired := true } (withEntry 3 entryX live)))
    let t := after (exec (.detailTaken 0 .a) (detailed b))
    (t.sources.table[3]).bind (·.pending) = none ∧ t.paths.a.measure.count.badOrigins = 0 ∧
    t.paths.a.measure.count.completed = 1 := by decide +kernel
/-- O33: the Detail of the selected entry's pending Beacon, with an empty and with a filled window. -/
theorem witness_SelectedDetail (w : List Int) :
    let s := detailed (selecting (some 3) false (withEntry 3 { awaiting 0 7 with window := w } live))
    s.sources.selected = some 3 ∧ s.sources.findKey senderX .a = some 3 ∧ (awaiting 0 7).mute = false ∧
    (s.path .a).inbox.details = [copyOf (scxOf (.detail (originAt 0)))] ∧ s.correction.stepSum = 0 := by
  refine ⟨rfl, ?_, rfl, rfl, rfl⟩
  rfl

def recording (r : Option ProbeRecord) (s : State) : State :=
  onA (fun q => { q with measure := { q.measure with record := r } }) s
def replied (ns : Nat) (s : State) : State := onA (fun q => { q with
  inbox := { Inbox.reset with replies := [copyOf (scxOf (.reply (originAt ns) 1 17))] } }) s
/-- O34: no copy; no record, an unsent one; a match with an unusable time, without a leg, and with one, whose sample is
0 or more, and below 0. -/
theorem witness_Replies : (live.path .a).inbox.replies = [] ∧
    ((replied 0 live).path .a).inbox.replies = [copyOf (scxOf (.reply (originAt 0) 1 17))] ∧
    ((replied 0 live).path .a).measure.record = none ∧
    ((recording (some ⟨senderX, 17, none⟩) (replied 0 live)).path .a).measure.record = some ⟨senderX, 17, none⟩ ∧
    ((recording (some ⟨senderX, 17, some 0⟩) (replied 0 live)).path .a).measure.record = some ⟨senderX, 17, some 0⟩ ∧
    999999999 < (originAt 1000000000).ns ∧ (originAt 999999999).ns ≤ 999999999 ∧
    ((live.sources.findKey senderX .a).bind fun i => (live.sources.table[i]).bind (·.leg)) = none ∧
    (withEntry 3 { entryX with leg := some 4 } live).sources.findKey senderX .a = some 3 ∧
    ((withEntry 3 { entryX with leg := some 4 } live).elapse 0).sources.table[3] = some { entryX with leg := some 4 } ∧
    (0 : Int) ≤ (4 + ((originAt 0).units - 4 - 0)) / 2 ∧ ¬ (0 : Int) ≤ (4 + ((originAt 0).units - 5 - 0)) / 2 := by
  decide +kernel

def measuring (f : Measure → Measure) (s : State) : State := onA (fun q => { q with measure := f q.measure }) s
/-- O35: one unit before a due instant and at it; each record, the sent one with a lead too; no lead, and a lead on a
port that takes the Probe, idle with TIME not MASKED, that holds one, that is DOWN, that is transmitting. -/
theorem witness_ProbeDue : (live.path .a).net.sending = none ∧ (live.path .a).arb.timeClass ≠ .masked ∧
    live.sources.findKey senderX .a = none ∧
    ((recording (some ⟨senderX, 17, some 0⟩) (measuring (fun m => { m with lead := some senderX }) live)).path .a).measure.lead =
      some senderX ∧ ((live.elapse (65536000000000 - 1)).path .a).measure.timer < expSeconds 0 ∧
    expSeconds 0 ≤ ((live.elapse 65536000000000).path .a).measure.timer ∧
    (live.path .a).measure.record = none ∧ (live.path .a).measure.lead = none ∧
    ((recording (some ⟨senderX, 17, none⟩) live).path .a).measure.record = some ⟨senderX, 17, none⟩ ∧
    ((recording (some ⟨senderX, 17, some 0⟩) live).path .a).measure.record = some ⟨senderX, 17, some 0⟩ ∧
    ((measuring (fun m => { m with lead := some senderX }) live).path .a).measure.lead = some senderX ∧
    (withEntry 3 entryX live).sources.findKey senderX .a = some 3 ∧ (live.path .a).net.up = true ∧
    (live.path .a).queues.time = none ∧ (State.reset.path .a).net.up = false ∧
    ((netSending .mgmt live).path .a).net.sending.isSome = true := by decide +kernel

/-! ### Generators, lines, captures -/

def running (c : GenConfig) (s : State) : State :=
  after (exec (.writeRowCadence ⟨0, 0, BitVec.ofNat 32 c.n, BitVec.ofNat 16 c.d, 0⟩) s)
/-- O36: no edge; one due exactly (edge 59,941 of the worked run), one not yet due; labelled, unlabelled, and labelled with
no jam edge. -/
theorem witness_GeneratorEdge : (live.gens[0]).nextEdge = none ∧
    ((timed 1000 15683333 (running e1 (timed 1000 0 .reset))).gens[0]).nextEdge = some (59941, 1000015683333, 20000) ∧
    (wholeNs ((timed 1000 15683333 (running e1 (timed 1000 0 .reset))).elapse 0).servo.time : Int) = 1000015683333 ∧
    (wholeNs ((timed 1000 15683332 (running e1 (timed 1000 0 .reset))).elapse 0).servo.time : Int) < 1000015683333 ∧
    ((running e1 (timed 1000 0 .reset)).gens[0]).label = none ∧
    (((after (exec (.writeRowCadence ⟨0, 1, 25, 1, 0⟩) (timed 1000 0 .reset))).gens[0]).label.bind (·.jamEdge)).isSome ∧
    (⟨df30, none, none, 0, 0, 0, none⟩ : LabelState).jamEdge = none := by
  decide +kernel

/-- O39: a capture at the midpoint of a gap of the bound generator, whose ends are 1000 gaps inside the index range. -/
theorem witness_CapturePhase : ((running e1 (timed 1000 24024999 .reset)).gens[0]).condition ≠ .disabled ∧
    ((running e1 (timed 1000 24024999 .reset)).gens[0]).config = e1 ∧ 1 ≤ e1.n ∧ 1000 * e1.n ≤ e1.d * 1000000000 ∧
    indexMin ≤ Int.fdiv ((1000024024999 - e1.phi) * e1.n) (e1.d * 1000000000) ∧
    Int.fdiv ((1000024024999 - e1.phi) * e1.n) (e1.d * 1000000000) < indexMax ∧
    (running e1 (timed 1000 24024999 .reset)).capturePhase (some 0) = some 8341666 := by decide +kernel

def lineIn (m : LineMode) : OutputLine := { OutputLine.reset 2 with mode := m, divisor := 2, phase := 1 }
/-- O40: each mode on a selected edge and on one it does not select; a muted line; an armed and a running one-shot; a
pulse end run out, and none. -/
theorem witness_Lines : (lineIn .pulse).cadence = 2 ∧ (59941 : Int) % (lineIn .pulse).divisor = (lineIn .pulse).phase ∧
    (59942 : Int) % (lineIn .square).divisor ≠ (lineIn .square).phase ∧ (lineIn .pulse).cadence ≠ 3 ∧
    ({ lineIn .pulse with muted := true } : OutputLine).muted = true ∧ (lineIn .pulse).muted = false ∧
    ({ lineIn .oneshot with oneShot := some .armed } : OutputLine).oneShot = some .armed ∧
    (lineIn .oneshot).pulseEnd = none ∧ ({ lineIn .oneshot with pulseEnd := some 1 } : OutputLine).pulseEnd ≠ none ∧
    (lineIn .static).mode = .static ∧ (lineIn .idle).mode = .idle ∧ (lineIn .square).mode = .square ∧
    (({ State.reset with lines := { Lines.reset with
      outputs := Lines.reset.outputs.set 2 { lineIn .pulse with pulseEnd := some 65536 } } }.elapse 65536).lines.outputs[2]).pulseEnd =
        some 0 ∧ ((live.elapse 5).lines.outputs[2]).pulseEnd ≠ some 0 := by decide +kernel

def selectingEdges (e : EdgeSelect) (n : Nat) : State := { State.reset with lines := { Lines.reset with
  inputs := Lines.reset.inputs.set 1 ⟨e, none, false⟩
  fifo := List.replicate n ⟨0, .rising, ⟨0, 0, 0⟩, .freerun, none⟩ } }
/-- R153: a capture of an unbound input, or of a DISABLED generator, has no phase. -/
theorem test_capture_without_phase : State.reset.capturePhase none = none ∧ State.reset.capturePhase (some 0) = none := by
  decide +kernel
/-- O41: each selection; the FIFO with 0, 31 and 32 records. -/
theorem witness_Captures : ((selectingEdges .none 0).elapse 0).lines.inputs[1].select = .none ∧
    ((selectingEdges .rising 0).elapse 0).lines.inputs[1].select = .rising ∧
    ((selectingEdges .falling 0).elapse 0).lines.inputs[1].select = .falling ∧
    ((selectingEdges .both 0).elapse 0).lines.inputs[1].select = .both ∧ (selectingEdges .both 0).lines.fifo = [] ∧
    (selectingEdges .both 31).lines.fifo ≠ [] ∧ (selectingEdges .both 31).lines.fifo.length < 32 ∧
    32 ≤ (selectingEdges .both 32).lines.fifo.length := by decide +kernel

/-- Chapter 12, the capture record: the bytes of one with a phase of -2 ns and of one without, both in range (O46). -/
theorem test_capture_bytes :
    Capture.bytes ⟨3, .falling, ⟨258, 1000, 5⟩, .locked, some (-2)⟩ =
      [3, 1, 2, 1, 0, 0, 0, 0, 1, 2, 0, 0, 3, 232, 0, 5, 255, 255, 255, 254] ∧
    Capture.bytes ⟨0, .rising, ⟨258, 1000, 5⟩, .freerun, none⟩ =
      [0, 0, 0, 0, 0, 0, 0, 0, 1, 2, 0, 0, 3, 232, 0, 5, 0, 0, 0, 0] ∧
    TimeValue.normal ⟨258, 1000, 5⟩ = true := by decide +kernel

/-! ### Notices, media, control frames -/

def bothSending (s : State) : State := { s with paths := s.paths.map fun q =>
  { q with net := { q.net with sending := some ⟨.through, [1]⟩ } } }
def noticing (hold mark : Bool) (timer : Option Nat) : State := withCtl (fun c => { c with
  destination := some 9, mask := 0, hold := hold, timer := timer, pendingMark := mark, flags := if mark then 4 else 0 })
  (netSending .through live)
/-- O42: a flag set and clear; no destination; a masked flag; the timer running, the hold, neither, with path A and
with BOTH named and room on each; each way of the timer's end. -/
theorem witness_Notices : (∀ p : Path, p ∈ [Path.a, .b] → ((bothSending (noticing false true (some 65536))).path p).net.up = true ∧
      ((bothSending (noticing false true (some 65536))).path p).net.sending.isSome = true ∧
      ((bothSending (noticing false true (some 65536))).path p).queues.mgmt.length < 8) ∧
    (bothSending (noticing false true (some 65536))).ctl.noticePath = .both ∧
    (bothSending (noticing false true (some 65536))).ctl.pendingMark = true ∧
    (bothSending (noticing false true (some 65536))).ctl.hold = false ∧ flagged.ctl.isSet .linkChange = true ∧ (noticing false false none).ctl.isSet .linkChange = false ∧
    live.ctl.destination = none ∧ live.ctl.mask.getLsbD Event.linkChange.bit = true ∧
    (noticing false false none).ctl.destination = some 9 ∧
    (noticing false false none).ctl.mask.getLsbD Event.linkChange.bit = false ∧
    (noticing false false (some 1)).ctl.timer.isSome = true ∧ (noticing true false none).ctl.hold = true ∧
    (noticing false false none).ctl.noticePath = .both ∧
    (withCtl (fun c => { c with noticePath := .a }) (noticing false false none)).ctl.noticePath = .a ∧
    ((noticing false false none).path .a).net.up = true ∧ ((noticing false false none).path .a).net.sending.isSome = true ∧
    ((noticing false false none).path .a).queues.mgmt.length < 8 ∧ (live.elapse 0).ctl.timer ≠ some 0 ∧
    ((noticing false false (some 65536)).elapse 65536).ctl.timer = some 0 ∧
    ((noticing true true (some 65536)).elapse 65536).ctl.timer = some 0 ∧
    (noticing true true (some 65536)).ctl.pendingMark = true ∧ (noticing false false (some 65536)).ctl.pendingMark = false ∧
    (noticing true true none).ctl.flags &&& ~~~(noticing true true none).ctl.mask ≠ 0 := by decide +kernel
def maskedWith (frames : List (List Byte)) : State := onA (fun q => { q with
  arb := { q.arb with mgmtClass := .masked }, queues := { q.queues with mgmt := frames } }) live
/-- O42 and O44: offers to a DOWN port, to a queue of 8, and to an idle port with MGMT not MASKED. -/
theorem witness_Offered : ((netDown live).path .a).net.up = false ∧
    ((maskedWith (List.replicate 8 [1])).path .a).mgmtFull = true ∧ (live.path .a).mgmtFull = false ∧
    (live.path .a).net.up = true ∧ (live.path .a).net.sending = none ∧ (live.path .a).arb.mgmtClass ≠ .masked := by decide

def mediaCopy (n : Nat) : MediaCopy := ⟨0xEF0A0005, 5004, zeros n, ⟨0, 0⟩⟩
def mediaWaiting (n : Nat) (s : State) : State := onA (fun q => { q with inbox := q.inbox.setMedia false [mediaCopy n] }) s
def timedRow : FlowRow := { flowUp with stats := { FlowStats.reset with timer := some 65536 } }
def timedFlow : State := { live with flow := { Flow.reset with rows := Flow.reset.rows.set 3 timedRow } }
/-- O43: no copy; no row, a row; payloads of 3 and 4 bytes at position 0; a silence timer run out. -/
theorem witness_Media : (live.path .a).inbox.media false = [] ∧
    ((mediaWaiting 4 liveFlow).path .a).inbox.media (Port.isNet .ea) = [mediaCopy 4] ∧
    live.flow.matching .ea (mediaCopy 4) = none ∧ liveFlow.flow.matching .ea (mediaCopy 4) = some 3 ∧
    (mediaCopy 3).payload.length < flowUp.config.position + 4 ∧ flowUp.config.position + 4 ≤ (mediaCopy 4).payload.length ∧
    ((timedFlow.elapse 65536).flow.rows[3]).stats.timer = some 0 ∧ ((live.elapse 5).flow.rows[3]).stats.timer ≠ some 0 := by decide +kernel

def handed (f : List Byte) : State := withCtl (fun c => { c with executing := some ⟨⟨.a, f⟩, false, [], [], 0⟩ }) live
def begun (n : Nat) : State := netSending .through (withCtl (fun c => { c with
  hold := true, executing := some ⟨⟨.a, controlRequest []⟩, true, List.replicate n ⟨6, []⟩, [], 0⟩ }) live)
/-- O44: no frame; an unlisted sender beside a manager, a malformed frame, one of one command; a begun frame with two
commands left, with one, and with none; waiting places that are empty, one filled, both filled, at different instants
and at one. -/
theorem witness_ControlFrames : (begun 1).ctl.executing.map (·.entries) = some [⟨6, []⟩] ∧ live.ctl.waiting = ⟨none, none⟩ ∧
    (busy (some ⟨⟨.a, []⟩, 0⟩)).ctl.waiting = ⟨some ⟨⟨.a, []⟩, 0⟩, none⟩ ∧
    (4 : Nat) < 5 ∧ (⟨⟨.a, []⟩, 4⟩ : Waiting).since = (⟨⟨.b, []⟩, 4⟩ : Waiting).since ∧ live.ctl.executing = none ∧
    (handed []).ctl.executing = some ⟨⟨.a, []⟩, false, [], [], 0⟩ ∧ (handed []).ctl.hold = false ∧
    (handed []).ctl.softReset = false ∧ (handed []).ctl.heldNotice = false ∧
    (withCtl (fun c => { c with managers := c.managers.set 0 (some 8) }) live).ctl.admits
      (readFrame (controlRequest [0, 4, 0, 6])).src = false ∧
    live.ctl.admits (readFrame (controlRequest [0, 4, 0, 6])).src = true ∧
    readRequest (readFrame (controlRequest [0, 3, 0])).payload = none ∧
    (readRequest (readFrame (controlRequest [0, 4, 0, 6])).payload).map (·.2) = some [⟨6, []⟩] ∧
    (begun 2).ctl.executing.map (·.entries) = some [⟨6, []⟩, ⟨6, []⟩] ∧
    (begun 0).ctl.executing.map (·.entries) = some [] ∧ (begun 0).ctl.softReset = false ∧
    (begun 0).ctl.heldNotice = false ∧ ((begun 0).path .a).net.up = true ∧
    ((begun 0).path .a).net.sending.isSome = true ∧ ((begun 0).path .a).queues.mgmt.length < 8 := by decide +kernel
/-- Chapter 12: a request of tag 513 with READ_EVENTS and a READ_ITEM of item 112, then two bytes of padding. -/
def requestTwo : List Byte := [0, 0, 2, 1, 0, 18, 0, 0, 0, 4, 0, 6, 0, 6, 0, 1, 0, 112, 0, 0]
/-- O44: a payload that is a request, entry by entry; a sender and no manager listed; a frame of 64 bytes. -/
theorem witness_Request : RequestOf requestTwo 513 [⟨6, []⟩, ⟨1, [0, 112]⟩] ∧
    (∀ i : Fin 4, live.ctl.managers[i] = none) ∧ 64 ≤ (controlRequest [0, 4, 0, 6]).length := by
  refine ⟨⟨rfl, by decide, by decide, by decide, by decide, ?_⟩, by decide, by decide⟩
  intro e he
  simp only [List.mem_cons, List.not_mem_nil, or_false] at he
  rcases he with rfl | rfl <;> decide
theorem test_request_read : readRequest requestTwo = some (513, [⟨6, []⟩, ⟨1, [0, 112]⟩]) ∧
    readRequest (requestTwo.set 5 17) = none ∧ readRequest (requestTwo.set 0 1) = none := by decide +kernel
/-- The cursor at a row of a table. -/
def cursorAt (t : Table) (row : Nat) (s : State) : State := withCtl (fun c => { c with table := t, row := row }) s
/-- O44: one command and then another; the taking of a sound state; the hold that RunsEntries asks for. -/
theorem witness_FrameSteps : (begun 2).servo.Sound ∧ (handed []).servo.Sound ∧ (begun 2).inReset = false ∧
    (begun 2).ctl.hold = true ∧ (begun 2).ctl.executing.map (·.begun) = some true :=
  ⟨servo_reset_sound, servo_reset_sound, rfl, rfl, rfl⟩
/-- O44, RunsEntries: an item that is none (777), one read-only (100), one writable (112) and each with a wrong length;
room that an item's value fits and does not; a cursor at a row and past the last; a count of 64 and of 65. -/
theorem witness_Entries : (begun 0).itemValue ((3 : Byte) ++ (9 : Byte)).toNat = none ∧
    ((begun 0).itemValue ((0 : Byte) ++ (100 : Byte)).toNat).isSome = true ∧ isWritable ((0 : Byte) ++ (100 : Byte)).toNat = false ∧
    ((begun 0).itemValue ((0 : Byte) ++ (112 : Byte)).toNat).isSome = true ∧ isWritable ((0 : Byte) ++ (112 : Byte)).toNat = true ∧
    ((begun 0).itemValue 112).map (·.length) = some 8 ∧ (begun 0).ctl.row < (begun 0).ctl.table.rows ∧
    ¬ (cursorAt .cadence 16 (begun 0)).ctl.row < (cursorAt .cadence 16 (begun 0)).ctl.table.rows ∧ (64 : Byte).toNat ≤ 64 ∧
    ¬ (65 : Byte).toNat ≤ 64 ∧
    (⟨2, [0, 112, 0, 0, 0, 0, 0, 0, 0, 0, 3, 232]⟩ : Entry).command = some (.writeItem 112 1000) ∧
    (⟨9, [0, 0, 0, 0, 3, 232, 0, 0, 0, 5, 0, 7]⟩ : Entry).command = some (.setTime 1000 5 7) ∧
    (⟨10, [0, 3, 0]⟩ : Entry).command = none ∧ (⟨17, []⟩ : Entry).command = none := by decide +kernel
/-- R170: the result of an entry of code 17, of a READ_ITEM of item 777 in an entry too long, of a WRITE_ITEM to item 100
in one too short, and of a READ_EVENTS with 3 bytes of room. -/
theorem test_entry_checks : ((begun 0).runEntry 1486 ⟨17, [1]⟩).2.result = .unknownCommand ∧
    ((begun 0).runEntry 1486 ⟨1, [3, 9, 0, 0, 0]⟩).2.result = .noItem ∧
    ((begun 0).runEntry 1486 ⟨2, [0, 100]⟩).2.result = .readOnly ∧ ((begun 0).runEntry 3 ⟨6, []⟩).2.result = .noRoom := by
  decide +kernel
/-- O44: the end of a frame with a notice held and with a SOFT_RESET arranged; entries formed at the limit. -/
theorem witness_FrameEnds :
    let s := withCtl (fun c => { c with heldNotice := true, softReset := true, destination := some 9 }) (begun 0)
    s.ctl.heldNotice = true ∧ s.ctl.softReset = true ∧ s.ctl.destination = some 9 ∧
    s.ctl.executing.map (·.entries) = some [] ∧ ([⟨14, [0, 0, 0, 0]⟩, ⟨6, []⟩] : List Entry).map Entry.kept = [10, 6] := by
  decide

/-! ### Management commands standing alone -/

theorem holdSound_of {c : Control} (h : c.hold = false → c.heldNotice = false ∧ c.softReset = false)
    (e : c.executing = none) : c.HoldSound := ⟨h, fun _ x hx => by rw [e] at hx; cases hx⟩
/-- O45, O46, O47, O54 need only this; the other statements of this group need it with what follows. -/
theorem witness_Ready : State.reset.Ready := ⟨rfl, holdSound_of (fun _ => ⟨rfl, rfl⟩) rfl⟩
theorem witness_Ready_cursor (t : Table) (row : Nat) : (cursorAt t row State.reset).Ready :=
  ⟨rfl, holdSound_of (fun _ => ⟨rfl, rfl⟩) rfl⟩

/-- R187: the bytes of a residence entry's row and of a manager's row; a row not in use is zeros. -/
theorem test_row_bytes : (withResidence live).rowBytes .residence 5 =
    [1, 0, 0, 0, 3, 44, 0, 0, 0xAA, 0xBB, 0xCC, 0, 0, 1, 0, 1, 0, 0, 0, 0, 5, 0x8C, 0, 0] ++ zeros 16 ∧
    (withResidence live).rowBytes .residence 6 = zeros 40 ∧ live.rowBytes .managers 3 = zeros 8 := by decide +kernel
/-- O45: a labelled generator with an edge to come, a disabled one; a source entry without and with an estimate, LOST
and not; rows in use and not. -/
theorem witness_Rows :
    let g := ({ Generator.reset with config := ⟨true, 25, 1, 0, .ndf⟩ } : Generator).realigned Sources.reset.house .write 0
    g.label.isSome = true ∧ g.nextEdge.isSome = true ∧ Generator.reset.condition = .disabled ∧ live.sources.table[3] = none ∧
    (withEntry 3 entryX live).sources.table[3] = some entryX ∧ entryX.window = [] ∧ entryX.state ≠ .lost ∧
    ((withEntry 3 { entryX with state := .lost, window := [5] } live).sources.table[3]).map (·.window) = some [5] := by
  decide +kernel

/-- O46 and O47: counts at their ends, an item that is none, one read-only, values at the ends of their ranges. -/
theorem witness_ItemWrites : State.reset.itemValue (777 : BitVec 16).toNat = none ∧
    (State.reset.itemValue (100 : BitVec 16).toNat).isSome = true ∧ isWritable (100 : BitVec 16).toNat = false ∧
    (5 : BitVec 64).toNat ≤ 5 ∧ ¬ (6 : BitVec 64).toNat ≤ 5 ∧ (127 : BitVec 64).toNat ≤ 127 ∧
    ¬ (128 : BitVec 64).toNat ≤ 127 ∧ (2 : BitVec 64).toNat ≤ 2 ∧ ¬ (3 : BitVec 64).toNat ≤ 2 ∧
    -32767 ≤ (BitVec.ofInt 64 (-32767)).toInt ∧ ¬ -32767 ≤ (BitVec.ofInt 64 (-32768)).toInt ∧
    (0xFFFFFFFFFFFF : BitVec 64).toNat < 281474976710656 ∧ ¬ (0x1000000000000 : BitVec 64).toNat < 281474976710656 ∧
    (0x1000000000000 : BitVec 64) ≠ BitVec.allOnes 64 ∧ (0xFFFFFC : BitVec 64).getLsbD 0 = false ∧
    (0xFFFFFC : BitVec 64).getLsbD 1 = false ∧ (0xFFFFFC : BitVec 64).toNat < 16777216 ∧
    (0xFFFFFD : BitVec 64).getLsbD 0 = true ∧ (0xFFFFFE : BitVec 64).getLsbD 1 = true ∧ (0xFFFFFF : BitVec 32).toNat < 16777216 ∧
    ¬ (0x1000000 : BitVec 32).toNat < 16777216 := by decide +kernel

/-- O48: MASKED and beyond; ports that are transmitting or DOWN; a masked requester with a frame waiting on an idle
port, and an idle port with nothing waiting; house values at the ends of their ranges and just beyond them. -/
theorem witness_ClassAndHouse : (32768 : BitVec 64).toInt > 32767 ∧ (BitVec.ofInt 64 (-32769)).toInt < -32768 ∧
    (51300 : BitVec 64).toInt > 50400 ∧ (901 : BitVec 64).toInt % 900 ≠ 0 ∧ 86399 < (86400 : BitVec 64).toNat ∧
    ((maskedWith []).path .a).net.isIdle = true ∧ ((maskedWith []).path .a).waitingFrames .mgmt = 0 ∧ (3 : BitVec 64).toNat > 2 ∧ readClass (1 : BitVec 64).toNat = some .lp ∧
    readClass (2 : BitVec 64).toNat = some .masked ∧
    (State.reset.path .a).net.isIdle = false ∧ (State.reset.path .b).net.isIdle = false ∧
    (maskedWith [[1]]).inReset = false ∧ (maskedWith [[1]]).ctl.select.names .a = true ∧
    ((maskedWith [[1]]).path .a).net.isIdle = true ∧ ((maskedWith [[1]]).path .a).arb.classOf .mgmt = .masked ∧
    0 < ((maskedWith [[1]]).path .a).waitingFrames .mgmt ∧
    (BitVec.ofInt 64 (-32768)).toInt = -32768 ∧ (32767 : BitVec 64).toInt ≤ 32767 ∧
    -50400 ≤ (BitVec.ofInt 64 (-50400)).toInt ∧ (50400 : BitVec 64).toInt ≤ 50400 ∧ (50400 : BitVec 64).toInt % 900 = 0 ∧
    (86399 : BitVec 64).toNat ≤ 86399 := by decide +kernel
theorem witness_ClassAndHouse_ready : (maskedWith [[1]]).Ready := ⟨rfl, holdSound_of (fun _ => ⟨rfl, rfl⟩) rfl⟩

/-- O48: a labelled generator that runs; one that does not. -/
theorem witness_HouseChange :
    let g := ({ Generator.reset with config := ⟨true, 25, 1, 0, .ndf⟩ } : Generator).realigned Sources.reset.house .write 0
    g.condition = .running ∧ g.label.isSome = true ∧ g.next.isSome = true ∧ Generator.reset.condition ≠ .running := by
  decide +kernel

/-- O49: a value beyond 1; HOLDOVER under a change of mode; residence entries due and not due; entries past the new
loss limit and within it; a change and no change of the selection. -/
theorem witness_MovingWrites : (2 : BitVec 64).toNat > 1 ∧ (1 : BitVec 64).toNat ≤ 1 ∧
    (servoIn .holdover 0).servo.state = .holdover ∧ (servoIn .holdover 0).servo.lenient ≠ true ∧
    1000 * 65536000000 ≤ ({ residenceX with age := 65536000000000 } : ResidenceEntry).age ∧
    ¬ 1 * 65536000000 ≤ residenceX.age ∧
    (entryX.state ≠ .lost ∧ 2 * expSeconds entryX.offerExp ≤ ({ entryX with sinceOffer := 131072000000000 } : SourceEntry).sinceOffer) ∧
    ¬ (2 * expSeconds entryX.offerExp ≤ entryX.sinceOffer) ∧ live.nextSelected = live.sources.selected ∧
    (withEntry 3 entryX live).nextSelected ≠ (withEntry 3 entryX live).sources.selected := by decide +kernel
theorem witness_MovingWrites_ready (x : SourceEntry) : (withEntry 3 x live).Ready ∧ (servoIn .holdover 0).Ready ∧
    (withResidence live).Ready :=
  ⟨⟨rfl, holdSound_of (fun _ => ⟨rfl, rfl⟩) rfl⟩, ⟨rfl, holdSound_of (fun _ => ⟨rfl, rfl⟩) rfl⟩,
    ⟨rfl, holdSound_of (fun _ => ⟨rfl, rfl⟩) rfl⟩⟩

/-- A selected entry in row 3 that a loss limit of 2 finds due, and a residence entry of path A one second old in row 5. -/
def dueEntry : State := selecting (some 3) false (withEntry 3 { entryX with sinceOffer := 131072000000000 } live)
def agedEntry : State := { live with correction := { Correction.reset with
  rows := Correction.reset.rows.set 5 (some { residenceX with age := 65536000000000 }) } }
/-- O49: the selected entry due, none before it, and the same for the residence entry of each path. -/
theorem witness_DueEntries : dueEntry.sources.selected = some 3 ∧
    dueEntry.sources.table[3] = some { entryX with sinceOffer := 131072000000000 } ∧
    (∀ j : Fin 16, j < 3 → dueEntry.sources.table[j] = none) ∧
    agedEntry.correction.rows[5] = some { residenceX with age := 65536000000000 } := by decide +kernel
theorem witness_DueEntries_ready : dueEntry.Ready ∧ agedEntry.Ready :=
  ⟨⟨rfl, holdSound_of (fun _ => ⟨rfl, rfl⟩) rfl⟩, ⟨rfl, holdSound_of (fun _ => ⟨rfl, rfl⟩) rfl⟩⟩
/-- R77, R66: a loss limit written makes the due entry LOST, counts one loss of its path, raises SOURCE_LOST and
leaves no selection; a lifetime written frees the aged entry and counts one orphan of its path. -/
theorem test_limits_written_act_at_once :
    ((after (exec (.writeLossLimit 2) dueEntry)).sources.table[3]).map (·.state) = some .lost ∧
    ((after (exec (.writeLossLimit 2) dueEntry)).path .a).sources.losses = 1 ∧
    (after (exec (.writeLossLimit 2) dueEntry)).ctl.isSet .sourceLost = true ∧
    (after (exec (.writeLossLimit 2) dueEntry)).sources.selected = none ∧
    (after (exec (.writeResidenceLifetime 1) agedEntry)).correction.rows[5] = none ∧
    ((after (exec (.writeResidenceLifetime 1) agedEntry)).path .a).correction.orphans = 1 := by decide +kernel

/-- O50: a read-only table, a wrong length, a cursor past its table, and a length and cursor that fit each table. -/
theorem witness_RowBytes : (cursorAt .source 0 .reset).ctl.table = .source ∧
    (Table.rowLengths .cadence 0).contains 15 = false ∧ (Table.rowLengths .cadence 15).contains 16 = true ∧
    (Table.rowLengths .flow 63).contains 28 = true ∧ (Table.rowLengths .rules 7).contains 16 = true ∧
    (Table.rowLengths .managers 3).contains 8 = true ∧ (Table.rowLengths .lines 0).contains 16 = true ∧
    (Table.rowLengths .lines 11).contains 4 = true ∧ Table.rows .cadence ≤ (cursorAt .cadence 16 .reset).ctl.row ∧
    (cursorAt .cadence 15 .reset).ctl.row < Table.rows .cadence ∧ (cursorAt .rules 0 .reset).ctl.table ≠ .cadence ∧
    (cursorAt .residence 0 .reset).ctl.table ≠ .cadence ∧ (zeros 16).length ∈ [16, 24] ∧ (zeros 4).length ∈ [4, 24] ∧
    (byteAt (zeros 16) 0).toNat = 0 ∧ (byteAt [1, 0, 0, 0] 0).toNat = 1 ∧ 1 < (byteAt [2, 0, 0, 0] 0).toNat := by
  decide +kernel
/-- R173: a row's own form written at a cursor one past the last row is BAD_VALUE. -/
theorem test_row_write_past_the_table :
    lastOf (.writeRowCadence ⟨0, 0, 25, 1, 0⟩) (cursorAt .cadence 16 .reset) = some ⟨.badValue, []⟩ ∧
    lastOf (.writeRowManagers ⟨1, 5⟩) (cursorAt .managers 4 .reset) = some ⟨.badValue, []⟩ := by decide +kernel

/-- The realigns of O9, O51, O53 and O54: at 1,000 s a 59.94 Hz generator starts toward edge 59,941, that very edge being
the last emitted on its instant starts toward the next, and from an edge on the instant goes on past it. -/
theorem witness_Realigned : ({ Generator.reset with config := e1 } : Generator).FirstEdge 1000000000000 59941 ∧
    e1.edgeAt 59941 ≠ 1000000000000 ∧ ({ Generator.reset with config := e1 } : Generator).FirstEdge 1000015683333 59941 ∧
    e1.edgeAt 59941 = 1000015683333 ∧
    ({ Generator.reset with config := e1, last := some ⟨59941, 1000015683333⟩ } : Generator).FirstEdge 1000015683333 59942 ∧
    ({ Generator.reset with config := ⟨true, 1000000, 1, 0, .off⟩ } : Generator).FirstEdge (9223372036854775807 * 1000)
      9223372036854775808 ∧
    ({ Generator.reset with config := ⟨true, 60000, 1, 0, .off⟩ } : Generator).FirstEdge 153722867280912930116666
      9223372036854775807 ∧
    (⟨true, 60000, 1, 0, .off⟩ : GenConfig).edgeAt 9223372036854775807 = 153722867280912930116666 := by
  simp only [Generator.FirstEdge, e1, Generator.reset]; decide
/-- At 0.04 s a 25 Hz generator whose edge 1 has just fallen due, its exact instant; no other generator runs. -/
def dueGen : Generator := { Generator.reset with
  config := ⟨true, 25, 1, 0, .off⟩, condition := .running, next := some 1, instant := some 40000000, remainder := some 0
  gap := 40000000, gapRemainder := 0 }
def dueState : State := timed 0 40000000 { State.reset with gens := State.reset.gens.set 5 dueGen }
theorem dueGen_lawful : dueGen.Lawful :=
  ⟨by decide, by decide, fun _ => ⟨1, by decide, rfl, rfl, rfl, rfl, rfl⟩, nofun, nofun, nofun, by decide⟩
/-- O9, O51, O53, O54: a due edge that the realign would not emit; one that it emits itself, at 16,683,333.3 ns; no due
edge. -/
theorem witness_dueEmitted : (dueGen.dueEmitted dueGen.config 40000000).last = some ⟨1, 40000000⟩ ∧
    (let g := { dueGen with config := e1, instant := some (e1.edgeAt 1) }
     g.dueEmitted e1 (e1.edgeAt 1) = g) ∧ dueGen.dueEmitted dueGen.config 39999999 = dueGen := by decide +kernel
/-- O54: the premises of the two orders. -/
theorem witness_TwoOrders : dueState.Ready ∧ dueState.servo.Sound ∧ dueGen.Lawful ∧ dueState.gens[5] = dueGen ∧
    dueGen.instant = some (wholeNs dueState.servo.time : Int) ∧
    (∀ j : Fin 16, (32 : BitVec 16).getLsbD j.val = decide (j = 5)) ∧
    (∃ s1 t t1, exec (.generatorEdge 0 5) dueState = .next s1 ∧ exec (.realign 32) dueState = .next t ∧
      exec (.realign 32) s1 = .next t1) :=
  ⟨⟨rfl, holdSound_of (fun _ => ⟨rfl, rfl⟩) rfl⟩, by constructor <;> decide, dueGen_lawful, rfl, rfl, by decide,
    ⟨_, _, _, rfl, rfl, rfl⟩⟩
/-- R121: REALIGN at the very instant of edge 1 leaves it emitted once, as the edge before REALIGN does. -/
theorem test_realign_keeps_due_edge :
    ((after (exec (.realign 32) dueState)).gens[5]).last = some ⟨1, 40000000⟩ ∧
    (after (exec (.realign 32) dueState)).gens[5] =
      (after (exec (.realign 32) (after (exec (.generatorEdge 0 5) dueState)))).gens[5] := by decide +kernel
/-- R121: after a step back that makes edge (1, T) of a 59.94 Hz generator next again, REALIGN at T, whose starting index
is raised past it, leaves it emitted, as the edge before REALIGN does. -/
theorem test_realign_keeps_repeated_edge :
    let g : Generator := { dueGen with
      config := e1, instant := some 16683333, remainder := some 20000, gap := 16683333, gapRemainder := 20000
      last := some ⟨1, 16683333⟩ }
    let s := timed 0 16683333 { State.reset with gens := State.reset.gens.set 5 g }
    let t := after (exec (.realign 32) s)
    e1.startIndex 16683333 = 1 ∧ e1.edgeAt 1 = 16683333 ∧ g.dueEdge e1 16683333 = some 1 ∧ (t.gens[5]).next = some 2 ∧
    t.lines = (after (exec (.realign 32) (after (exec (.generatorEdge 0 5) s)))).lines := by decide +kernel
/-- R124, R145, R150: REALIGN at the due edge: a PULSE line bound to the generator takes it, and a pulse already driven
there for longer keeps its end; a line of another generator stays as it was. -/
theorem test_realign_lines :
    let line := { lineIn .pulse with cadence := 5, divisor := 1, phase := 0, width := 1000 }
    let with0 := fun (l : OutputLine) => (after (exec (.realign 32)
      { dueState with lines := { Lines.reset with outputs := Lines.reset.outputs.set 0 l } })).lines.outputs[0]
    (with0 line).state = .active ∧ (with0 line).pulseEnd = some 65536000 ∧
    (with0 { line with state := .active, pulseEnd := some 131072000 }).pulseEnd = some 131072000 ∧
    with0 { line with cadence := 4 } = { line with cadence := 4 } := by decide +kernel
/-- The label state that a realign notice places (R130, R131, R135), from the tables of chapter 08: at 1,000 s the jam
edge of a 25 Hz generator is 0, the next 2,160,000; of a 30-DF one 0 and 2,589,411. -/
theorem test_labelAt :
    let at1000 := fun c => ({ Generator.reset with config := c } : Generator).labelAt Sources.reset.house 1000000000000
    at1000 ⟨true, 25, 1, 0, .ndf⟩ = some ⟨⟨25, 0, 0, 0, 2160000⟩, some 0, some 2160000, 0, 0, 0, none⟩ ∧
    at1000 ⟨true, 30000, 1001, 0, .df⟩ = some ⟨df30, some 0, some 2589411, 0, 0, 0, none⟩ ∧
    at1000 ⟨true, 25, 1, 0, .off⟩ = none := by decide +kernel
/-- O51: rows that are refused (a gap of 5 s, beyond the longest), disabled, and enabled. -/
theorem witness_CadenceWrite : (cursorAt .cadence 15 .reset).ctl.table = .cadence ∧
    (cursorAt .cadence 15 .reset).ctl.row = (15 : Fin 16).val ∧ checkCadence ⟨0, 0, 1, 5, 0⟩ = none ∧
    checkCadence ⟨0, 0, 1000000, 1, 0⟩ = some ⟨true, 1000000, 1, 0, .off⟩ ∧
    checkCadence ⟨1, 2, 30000, 1001, 0⟩ = some ⟨false, 30000, 1001, 0, .df⟩ := by decide +kernel

/-- O52: for each table a refused row and an accepted one, at its last row; rules that change the selection and that
do not. -/
theorem witness_RowWrites : (cursorAt .flow 63 .reset).ctl.row = (63 : Fin 64).val ∧
    checkFlow ⟨0, 3, 0, 0, 0, 0, 0, 90000, 0, 0, 0⟩ = none ∧ (checkFlow ⟨0, 2, 2, 60, 0, 0, 0, 1000000, 0, 0, 0⟩).isSome = true ∧
    (cursorAt .managers 3 .reset).ctl.row = (3 : Fin 4).val ∧ (1 : Byte).toNat ≤ 1 ∧ ¬ (2 : Byte).toNat ≤ 1 ∧
    (cursorAt .rules 7 .reset).ctl.row = (7 : Fin 8).val ∧ checkRule ⟨2, 0, 0, 0, 0, 0⟩ = none ∧
    checkRule ⟨0, 0, 0, 0, 0, 0⟩ = some none ∧ checkRule ⟨1, 1, 1, 0, 1, 0⟩ = some (some ⟨none, ⟨true, false⟩, .bar⟩) ∧
    (cursorAt .lines 7 .reset).ctl.row = (7 : Fin 8).val ∧ (cursorAt .lines 11 .reset).ctl.row = (3 : Fin 4).val + 8 ∧
    (cursorAt .rules 7 (withEntry 3 entryX live)).nextSelected ≠ (cursorAt .rules 7 (withEntry 3 entryX live)).sources.selected ∧
    (cursorAt .rules 7 live).nextSelected = (cursorAt .rules 7 live).sources.selected := by decide +kernel

/-- O52: a PREFER row before a BAR row that also matches, a BAR row of a WILDCARD, and no row that matches. -/
def ruled (l : List (Option SourceRule)) : Sources := { Sources.reset with rules := Vector.ofFn fun i => (l[i.val]?).getD none }
theorem witness_Standing :
    (ruled [none, some ⟨some 5, ⟨true, true⟩, .prefer 7⟩, some ⟨none, ⟨true, true⟩, .bar⟩]).standing 5 .a = (some 1, 7, false) ∧
    (ruled [none, some ⟨none, ⟨true, false⟩, .bar⟩]).standing 5 .a = (some 1, 128, true) ∧
    (ruled [none, some ⟨none, ⟨true, false⟩, .bar⟩]).standing 5 .b = (none, 128, false) := by decide +kernel

/-- O53: SET_TIME outside and inside FREERUN at both sides of the nanosecond range; SOFT_RESET with and without the
hold. -/
theorem witness_TimeAndReset : (servoIn .locked 0).servo.state ≠ .freerun ∧ State.reset.servo.state = .freerun ∧
    999999999 < (1000000000 : BitVec 32).toNat ∧ (999999999 : BitVec 32).toNat ≤ 999999999 ∧ (begun 0).ctl.hold = true ∧
    State.reset.ctl.hold = false := by decide +kernel
theorem witness_TimeAndReset_ready : (begun 0).Ready :=
  ⟨rfl, ⟨fun h => by simp [begun, netSending, onA, withCtl] at h, fun h => by simp [begun, netSending, onA, withCtl] at h⟩⟩

/-! ### Invariants -/

/-- O56 to O59: a step from reset, where every invariant holds (O55 states that they do). -/
theorem witness_Invariants : (step State.reset = .next (State.reset.elapse unitsPerNs)) ∧ State.reset.servo.Sound ∧
    State.reset.servo.Ranged ∧ State.reset.ctl.HoldSound := by
  refine ⟨?_, servo_reset_sound, servo_reset_ranged, holdSound_of (fun _ => ⟨rfl, rfl⟩) rfl⟩
  rw [step_idle rfl]
  rfl

def gaining : State := beaconed (scxOf (.beacon (originAt 0))) (selecting (some 3) false
  (withEntry 3 { entryX with window := [65536] } { live with servo := disciplined .acquire 5 7 }))
def expiring : State := withServo { Servo.reset with state := .holdover, lenient := true, timer := .running 0 }
/-- O60: a Beacon that brings the servo to LOCKED, and a holdover expiry that ends a true indication. -/
theorem witness_LockChanges : (Instr.beaconTaken 0 .a).isPlainEvent = true ∧ gaining.servo.lockIndication = false ∧
    (after (exec (.beaconTaken 0 .a) gaining)).servo.lockIndication = true ∧
    (Instr.holdoverExpiry 0).isPlainEvent = true ∧ expiring.servo.lockIndication = true ∧
    (after (exec (.holdoverExpiry 0) expiring)).servo.lockIndication = false := by decide +kernel

end Sys2Proof.Tests
end

section
/-! Delay and offset measurement (R98, R101 to R104): what a completed Beacon of the selected entry gives the servo, and
what a Reply gives its entry's window. -/

namespace Sys2Proof.DelayAndOffset

open Sys2Proof Sys2Proof.Machine Sys2Proof.Config

section
variable {dt : Nat} {p : Path} {s : State} {i : Fin 16} {x : SourceEntry} {c : ScxCopy} {rest : List ScxCopy}
  {o : MessageTime} {d f : Int}

/-! ## What elapsing time leaves in a path and in the source table -/

@[simp] theorem elapse_inbox (dt : Nat) (p : Path) (s : State) : ((s.elapse dt).path p).inbox = (s.path p).inbox := by
  simp [State.elapse, State.path, PathState.elapse]

@[simp] theorem elapse_record (dt : Nat) (p : Path) (s : State) :
    ((s.elapse dt).path p).measure.record = (s.path p).measure.record := by
  simp [State.elapse, State.path, PathState.elapse]

@[simp] theorem elapse_windowLength (dt : Nat) (p : Path) (s : State) :
    ((s.elapse dt).path p).measure.windowLength = (s.path p).measure.windowLength := by
  simp [State.elapse, State.path, PathState.elapse]

@[simp] theorem elapse_stepSum (dt : Nat) (s : State) : (s.elapse dt).correction.stepSum = s.correction.stepSum := by
  simp [State.elapse]

@[simp] theorem elapse_selected (dt : Nat) (s : State) : (s.elapse dt).sources.selected = s.sources.selected := by
  simp [State.elapse]

/-- An entry keeps its key while time passes, so that it is found in the same row. -/
@[simp] theorem elapse_findKey (dt : Nat) (s : State) (k : Ident) (p : Path) :
    (s.elapse dt).sources.findKey k p = s.sources.findKey k p := by
  simp only [State.elapse, Sources.findKey, findRow, mapEntries_eq_map]
  congr 1
  funext i
  cases h : s.sources.table[i] <;> simp_all [SourceEntry.hasKey, SourceEntry.elapse]

@[simp] theorem elapse_leg (dt : Nat) (s : State) (i : Fin 16) :
    ((s.elapse dt).sources.table[i]).bind (·.leg) = (s.sources.table[i]).bind (·.leg) := by
  cases h : s.sources.table[i] <;> simp_all [State.elapse, SourceEntry.elapse]

/-! ## Replacing one entry -/

/-- The state with an entry in a row of the source table. -/
def putEntry (i : Fin 16) (x : SourceEntry) (s : State) : State :=
  { s with sources := { s.sources with table := s.sources.table.set i (some x) } }

@[simp] theorem putEntry_table (i : Fin 16) (x : SourceEntry) (s : State) :
    (putEntry i x s).sources.table[i] = some x := by simp [putEntry]

@[simp] theorem putEntry_selected (i : Fin 16) (x : SourceEntry) (s : State) :
    (putEntry i x s).sources.selected = s.sources.selected := rfl

@[simp] theorem putEntry_putEntry (i : Fin 16) (x y : SourceEntry) (s : State) :
    putEntry i y (putEntry i x s) = putEntry i y s := by simp [putEntry]

/-- Changing a row in use puts the changed entry there. -/
theorem modEntry_eq_putEntry (hx : s.sources.table[i] = some x) (g : SourceEntry → SourceEntry) :
    s.modEntry i g = putEntry i (g x) s := by
  simp [State.modEntry, State.modSources, modifyEntry, modifyRow_eq_set, hx, putEntry]

theorem putEntry_modPath (i : Fin 16) (x : SourceEntry) (p : Path) (g : PathState → PathState) (s : State) :
    putEntry i x (s.modPath p g) = (putEntry i x s).modPath p g := rfl

theorem putEntry_modInbox (i : Fin 16) (x : SourceEntry) (p : Path) (g : Inbox → Inbox) (s : State) :
    putEntry i x (s.modInbox p g) = (putEntry i x s).modInbox p g := rfl

theorem putEntry_countMeasure (i : Fin 16) (x : SourceEntry) (p : Path) (k : MeasureCounters → MeasureCounters)
    (s : State) : putEntry i x (s.countMeasure p k) = (putEntry i x s).countMeasure p k := rfl

/-! ## Several changes of one path as one change -/

@[simp] theorem countMeasure_countMeasure (p : Path) (k l : MeasureCounters → MeasureCounters) (s : State) :
    (s.countMeasure p k).countMeasure p l = s.countMeasure p (fun m => l (k m)) := by
  cases p <;> rfl

theorem countMeasure_modInbox (p : Path) (inbox : Inbox → Inbox) (k : MeasureCounters → MeasureCounters) (s : State) :
    (s.modInbox p inbox).countMeasure p k = s.modPath p fun q => { q with
      inbox := inbox q.inbox
      measure := { q.measure with count := k q.measure.count } } := by
  cases p <;> rfl

theorem countMeasure_clearRecord (p : Path) (inbox : Inbox → Inbox) (k : MeasureCounters → MeasureCounters)
    (s : State) :
    ((s.modInbox p inbox).modPath p PathState.clearRecord).countMeasure p k = s.modPath p fun q => { q with
      inbox := inbox q.inbox
      measure := { q.measure with record := none, count := k q.measure.count } } := by
  cases p <;> rfl

@[simp] theorem modInbox_measure (p : Path) (g : Inbox → Inbox) (s : State) :
    ((s.modInbox p g).path p).measure = (s.path p).measure := by simp [State.path]

/-- A cleared record leaves the window length as it was. -/
theorem clearRecord_windowLength (p : Path) (s : State) :
    ((s.modPath p PathState.clearRecord).path p).measure.windowLength = (s.path p).measure.windowLength := by
  simp [State.path, PathState.clearRecord]

/-! ## Reports and offsets (R80, R103, R104) -/

/-- The fields of an entry that a completed Beacon sets: its forward leg and the Beacon fields (R80, R101). -/
def completedEntry (f exponent time : Int) (x : SourceEntry) : SourceEntry :=
  { x with
    leg := some f
    beaconExp := some (clampInt (-7) 1 exponent)
    lastBeacon := some time
    sinceBeacon := some 0 }

@[simp] theorem completedEntry_window (f exponent time : Int) (x : SourceEntry) :
    (completedEntry f exponent time x).window = x.window := rfl

/-- The report of a completed Beacon of an entry that is not mute runs no selection (R80, R86). -/
theorem reportBeacon_of_not_mute (hx : s.sources.table[i] = some x) (mute : x.mute = false) (exponent time : Int) :
    s.reportBeacon i exponent time = putEntry i
      { x with
        beaconExp := some (clampInt (-7) 1 exponent)
        lastBeacon := some time
        sinceBeacon := some 0 } s := by
  simp [State.reportBeacon, modEntry_eq_putEntry hx, hx, mute]

theorem produceOffset_of_empty (hx : s.sources.table[i] = some x) (empty : x.window = []) :
    s.produceOffset p i f = s.countMeasure p fun k => { k with withheld := bump k.withheld } := by
  simp [State.produceOffset, delayEstimate, hx, empty]

theorem produceOffset_of_window (hx : s.sources.table[i] = some x) (window : x.window ≠ []) :
    s.produceOffset p i f = State.offsetArrival
      (clampInt (-1000000000) 1000000000 ((f - x.window.sum / x.window.length) / unitsPerNs))
      (s.countMeasure p fun k => { k with produced := bump k.produced }) := by
  simp [State.produceOffset, delayEstimate, hx, window]

/-- A completed Beacon of the selected entry, not mute: the entry takes it, then its leg goes to the offset (R101,
R104). -/
theorem completeBeacon_of_selected (hx : s.sources.table[i] = some x) (selected : s.sources.selected = some i)
    (mute : x.mute = false) (a origin cb exponent time : Int) :
    s.completeBeacon p i a origin cb exponent time =
      (putEntry i (completedEntry (a - origin - cb) exponent time x)
        (s.countMeasure p fun k => { k with completed := bump k.completed })).produceOffset p i (a - origin - cb) := by
  have legged : ((putEntry i { x with leg := some (a - origin - cb) } s).countMeasure p fun k =>
      { k with completed := bump k.completed }).sources.table[i] = some { x with leg := some (a - origin - cb) } :=
    putEntry_table _ _ _
  simp [State.completeBeacon, selected, modEntry_eq_putEntry hx, reportBeacon_of_not_mute legged mute,
    putEntry_countMeasure, completedEntry]

/-! ## Taking Beacons and Details (R99, R100, R106) -/

theorem exec_beaconTaken_live (live : s.inReset = false) :
    exec (.beaconTaken dt p) s = .next ((s.elapse dt).nextBeacon p) := event_live s live

theorem exec_detailTaken_live (live : s.inReset = false) :
    exec (.detailTaken dt p) s = .next ((s.elapse dt).nextDetail p) := event_live s live

theorem nextBeacon_cons (copies : (s.path p).inbox.beacons = c :: rest) (body : c.msg.body = .beacon o) :
    s.nextBeacon p = (s.modInbox p fun b => { b with beacons := rest }).takeBeacon p c o := by
  simp [State.nextBeacon, copies, body]

theorem nextDetail_cons (copies : (s.path p).inbox.details = c :: rest) (body : c.msg.body = .detail o) :
    s.nextDetail p = (s.modInbox p fun b => { b with details := rest }).takeDetail p c o := by
  simp [State.nextDetail, copies, body]

theorem isTime_iff (o : MessageTime) : o.isTime = true ↔ o.ns ≤ 999999999 := by simp [MessageTime.isTime]

/-- A single-form Beacon with a time as origin completes its entry at once (R99). -/
theorem takeBeacon_single (fresh : c.stamp.stepSum = s.correction.stepSum)
    (row : s.sources.findKey c.msg.sender p = some i) (single : c.msg.paired = false) (time : o.ns ≤ 999999999) :
    s.takeBeacon p c o =
      s.completeBeacon p i c.stamp.time o.units c.msg.correction c.msg.exponent c.stamp.time := by
  simp [State.takeBeacon, State.isStale, fresh, row, single, (isTime_iff o).mpr time]

/-- A Detail of the pending Beacon's domain and sequence completes it, and the pending record is cleared (R100). -/
theorem takeDetail_completes {b : PendingBeacon} (fresh : c.stamp.stepSum = s.correction.stepSum)
    (row : s.sources.findKey c.msg.sender p = some i) (hx : s.sources.table[i] = some x) (pending : x.pending = some b)
    (sequence : b.sequence = c.msg.sequence) (domain : b.domain = c.msg.domain) (time : o.ns ≤ 999999999) :
    s.takeDetail p c o = (putEntry i { x with pending := none } s).completeBeacon p i b.arrival o.units
      (b.correction + c.msg.correction) b.exponent c.stamp.time := by
  have completed : b.completedBy c.msg = true := by simp [PendingBeacon.completedBy, sequence, domain]
  simp [State.takeDetail, State.isStale, fresh, row, hx, pending, Option.filter, completed, (isTime_iff o).mpr time,
    modEntry_eq_putEntry hx]

/-! ## The offset of a completed Beacon (R104) -/

/-- With an empty window the offset is withheld, and the servo is not told (R104). -/
theorem completeBeacon_withheld (hx : s.sources.table[i] = some x) (selected : s.sources.selected = some i)
    (mute : x.mute = false) (empty : x.window = []) (a origin cb exponent time : Int) :
    s.completeBeacon p i a origin cb exponent time =
      (putEntry i (completedEntry (a - origin - cb) exponent time x) s).countMeasure p fun k =>
        { k with completed := bump k.completed, withheld := bump k.withheld } := by
  rw [completeBeacon_of_selected hx selected mute, produceOffset_of_empty (putEntry_table ..)
    ((completedEntry_window ..).trans empty), putEntry_countMeasure, countMeasure_countMeasure]

/-- With samples in the window the servo takes the offset, clipped to one second (R103, R104). -/
theorem completeBeacon_produced (hx : s.sources.table[i] = some x) (selected : s.sources.selected = some i)
    (mute : x.mute = false) (window : x.window ≠ []) (a origin cb exponent time : Int) :
    s.completeBeacon p i a origin cb exponent time = State.offsetArrival
      (clampInt (-1000000000) 1000000000 ((a - origin - cb - x.window.sum / x.window.length) / unitsPerNs))
      ((putEntry i (completedEntry (a - origin - cb) exponent time x) s).countMeasure p fun k =>
        { k with completed := bump k.completed, produced := bump k.produced }) := by
  rw [completeBeacon_of_selected hx selected mute, produceOffset_of_window (putEntry_table ..)
    (fun empty => window ((completedEntry_window ..).symm.trans empty)), putEntry_countMeasure,
    countMeasure_countMeasure, completedEntry_window]

/-! ## Delay samples (R102, R103) -/

theorem newest_append_singleton (n : Nat) (w : List Int) (v : Int) :
    newest n (w ++ [v]) = (w ++ [v]).drop (w.length + 1 - n) := by simp [newest]

theorem addSample_of_nonneg (hx : s.sources.table[i] = some x) {r : Int} (h : 0 ≤ (f + r) / 2) :
    s.addSample p i f r = (putEntry i { x with
      window := newest (s.path p).measure.windowLength (x.window ++ [(f + r) / 2]) } s).countMeasure p fun k =>
        { k with samples := bump k.samples } := by
  simp [State.addSample, modEntry_eq_putEntry hx, Int.max_eq_right h, Int.not_lt.mpr h]

/-- A negative sample enters as 0 and is an anomaly (R102). -/
theorem addSample_of_neg (hx : s.sources.table[i] = some x) {r : Int} (h : (f + r) / 2 < 0) :
    s.addSample p i f r = State.raise .delayAnomaly (((putEntry i { x with
      window := newest (s.path p).measure.windowLength (x.window ++ [0]) } s).countMeasure p fun k =>
        { k with samples := bump k.samples }).countMeasure p fun k => { k with anomalies := bump k.anomalies }) := by
  simp [State.addSample, modEntry_eq_putEntry hx, Int.max_eq_left (Int.le_of_lt h), h]

/-! ## Replies (R98) -/

theorem exec_replyTaken_live (live : s.inReset = false) :
    exec (.replyTaken dt p) s = .next ((s.elapse dt).nextReply p) := event_live s live

theorem nextReply_nil (noCopy : (s.path p).inbox.replies = []) : s.nextReply p = s := by simp [State.nextReply, noCopy]

theorem nextReply_cons {who : Ident} {sq : Nat} (copies : (s.path p).inbox.replies = c :: rest)
    (body : c.msg.body = .reply o who sq) :
    s.nextReply p = (s.modInbox p fun b => { b with replies := rest }).takeReply p c.msg o sq := by
  simp [State.nextReply, copies, body]

theorem answeredBy_iff (r : ProbeRecord) (sender : Ident) (sq : Nat) :
    r.answeredBy sender sq = true ↔ r.departure ≠ none ∧ r.sequence = sq ∧ r.target = sender := by
  simp [ProbeRecord.answeredBy, Option.isSome_iff_ne_none, and_assoc]

/-- A Reply that the outstanding record does not ask for is stray (R98). -/
theorem takeReply_stray {m : Scx} {sq : Nat}
    (h : (s.path p).measure.record = none ∨ ∃ r : ProbeRecord, (s.path p).measure.record = some r ∧
      (r.departure = none ∨ r.sequence ≠ sq ∨ r.target ≠ m.sender)) :
    s.takeReply p m o sq = s.countMeasure p fun k => { k with strayReplies := bump k.strayReplies } := by
  rcases h with h | ⟨r, h, mismatch⟩
  · simp [State.takeReply, h]
  · have unasked : r.answeredBy m.sender sq = false := by
      rw [Bool.eq_false_iff, ne_eq, answeredBy_iff]
      rintro ⟨departed, sequence, target⟩
      exact mismatch.elim departed fun m => m.elim (absurd sequence) (absurd target)
    simp [State.takeReply, h, unasked]

theorem takeReply_match {m : Scx} {sq : Nat} (h : (s.path p).measure.record = some ⟨m.sender, sq, some d⟩) :
    s.takeReply p m o sq = s.useReply p m o d := by
  simp [State.takeReply, h, ProbeRecord.answeredBy]

theorem useReply_unusable {m : Scx} (time : 999999999 < o.ns) :
    s.useReply p m o d =
      (s.modPath p PathState.clearRecord).countMeasure p fun k => { k with unusable := bump k.unusable } := by
  have untimed : o.isTime = false := by rw [Bool.eq_false_iff, ne_eq, isTime_iff]; omega
  simp [State.useReply, untimed]

theorem useReply_noSample {m : Scx} (time : o.ns ≤ 999999999)
    (noLeg : ((s.sources.findKey m.sender p).bind fun i => (s.sources.table[i]).bind (·.leg)) = none) :
    s.useReply p m o d =
      (s.modPath p PathState.clearRecord).countMeasure p fun k => { k with noSample := bump k.noSample } := by
  simp only [State.useReply, (isTime_iff o).mpr time, if_true]
  cases row : s.sources.findKey m.sender p with
  | none => rfl
  | some i =>
    rw [row, Option.bind_some] at noLeg
    simp only [noLeg]

theorem useReply_sample {m : Scx} (time : o.ns ≤ 999999999) (row : s.sources.findKey m.sender p = some i)
    (hx : s.sources.table[i] = some x) (leg : x.leg = some f) :
    s.useReply p m o d = (s.modPath p PathState.clearRecord).addSample p i f (o.units - d - m.correction) := by
  simp [State.useReply, (isTime_iff o).mpr time, row, hx, leg]

/-! ## The taking of a copy as one command -/

/-- BEACON_TAKEN of a single-form Beacon in use completes its entry (R99). -/
theorem exec_beaconTaken_single (live : s.inReset = false) (fresh : c.stamp.stepSum = s.correction.stepSum)
    (row : s.sources.findKey c.msg.sender p = some i) (time : o.ns ≤ 999999999)
    (copies : (s.path p).inbox.beacons = c :: rest) (body : c.msg.body = .beacon o) (single : c.msg.paired = false) :
    exec (.beaconTaken dt p) s = .next
      (((s.elapse dt).modInbox p fun b => { b with beacons := rest }).completeBeacon p i
        c.stamp.time o.units c.msg.correction c.msg.exponent c.stamp.time) := by
  rw [exec_beaconTaken_live live, nextBeacon_cons (by rwa [elapse_inbox]) body, takeBeacon_single
    (by simpa using fresh) (by simpa using row) single time]

/-- DETAIL_TAKEN of the pending Beacon's Detail completes the entry with the pending record cleared (R100). -/
theorem exec_detailTaken_completes {b : PendingBeacon} (live : s.inReset = false)
    (fresh : c.stamp.stepSum = s.correction.stepSum) (row : s.sources.findKey c.msg.sender p = some i)
    (hx : (s.elapse dt).sources.table[i] = some x) (time : o.ns ≤ 999999999)
    (copies : (s.path p).inbox.details = c :: rest) (body : c.msg.body = .detail o) (pending : x.pending = some b)
    (sequence : b.sequence = c.msg.sequence) (domain : b.domain = c.msg.domain) :
    exec (.detailTaken dt p) s = .next ((putEntry i { x with pending := none }
      ((s.elapse dt).modInbox p fun b => { b with details := rest })).completeBeacon p i
        b.arrival o.units (b.correction + c.msg.correction) b.exponent c.stamp.time) := by
  rw [exec_detailTaken_live live, nextDetail_cons (by rwa [elapse_inbox]) body, takeDetail_completes
    (by simpa using fresh) (by simpa using row) (by exact hx) pending sequence domain time]

theorem exec_replyTaken_cons {who : Ident} {sq : Nat} (live : s.inReset = false)
    (copies : (s.path p).inbox.replies = c :: rest) (body : c.msg.body = .reply o who sq) :
    exec (.replyTaken dt p) s =
      .next (((s.elapse dt).modInbox p fun b => { b with replies := rest }).takeReply p c.msg o sq) := by
  rw [exec_replyTaken_live live, nextReply_cons (by rwa [elapse_inbox]) body]

/-- REPLY_TAKEN of the outstanding record's Reply uses it (R98). -/
theorem exec_replyTaken_match {who : Ident} {sq : Nat} (live : s.inReset = false)
    (copies : (s.path p).inbox.replies = c :: rest) (body : c.msg.body = .reply o who sq)
    (record : (s.path p).measure.record = some ⟨c.msg.sender, sq, some d⟩) :
    exec (.replyTaken dt p) s =
      .next (((s.elapse dt).modInbox p fun b => { b with replies := rest }).useReply p c.msg o d) := by
  rw [exec_replyTaken_cons live copies body, takeReply_match (by simpa using record)]

end

/-! ## The obligations -/

/-- Settles O33: the copy is taken, its entry completed, and the window decides between a withheld and a produced
offset. -/
theorem selectedBeaconGivesTheServoAnOffset : Obligations.SelectedBeaconGivesTheServoAnOffset := by
  unfold Obligations.SelectedBeaconGivesTheServoAnOffset
  intro dt p s live e c rest o i x fresh row hx time selected mute completed after given
  refine ⟨fun copies body single => ?_, fun b copies body pending sequence domain => ?_⟩
  · have taken := exec_beaconTaken_single (dt := dt) live fresh row time copies body single
    refine ⟨fun empty => ?_, fun window => ?_⟩
    · rw [taken, completeBeacon_withheld (by exact hx) (by simpa using selected) mute empty,
        putEntry_modInbox, countMeasure_modInbox]
      rfl
    · rw [taken, completeBeacon_produced (by exact hx) (by simpa using selected) mute window,
        putEntry_modInbox, countMeasure_modInbox]
      rfl
  · have taken := exec_detailTaken_completes live fresh row hx time copies body pending sequence domain
    refine ⟨fun empty => ?_, fun window => ?_⟩
    · rw [taken, completeBeacon_withheld (x := { x with pending := none }) (putEntry_table ..)
        (by simpa using selected) mute empty, putEntry_putEntry, putEntry_modInbox, countMeasure_modInbox]
      rfl
    · rw [taken, completeBeacon_produced (x := { x with pending := none }) (putEntry_table ..)
        (by simpa using selected) mute window, putEntry_putEntry, putEntry_modInbox, countMeasure_modInbox]
      rfl

/-- Settles O34: a Reply is stray or matches; a match fails on its time, on the missing leg, or makes a sample, whose
sign decides between the sample and an anomaly. -/
theorem replyMakesADelaySample : Obligations.ReplyMakesADelaySample := by
  unfold Obligations.ReplyMakesADelaySample
  intro dt p s live e
  refine ⟨fun noCopy => ?_, fun c rest q0 who sq copies body => ⟨fun unasked => ?_, fun d record => ?_⟩⟩
  · rw [exec_replyTaken_live live, nextReply_nil (by rwa [elapse_inbox])]
  · rw [exec_replyTaken_cons live copies body, takeReply_stray (by simpa using unasked), countMeasure_modInbox]
    rfl
  · have taken := exec_replyTaken_match (dt := dt) live copies body record
    refine ⟨fun time => ?_, fun time noLeg => ?_, fun i x f time row hx leg => ?_⟩
    · rw [taken, useReply_unusable time, countMeasure_clearRecord]
      rfl
    · rw [taken, useReply_noSample time
        (by simpa only [State.modInbox_sources, elapse_findKey, elapse_leg] using noLeg), countMeasure_clearRecord]
      rfl
    · have used := useReply_sample (p := p) (m := c.msg) (d := d)
        (s := (s.elapse dt).modInbox p fun b => { b with replies := rest }) time (by simpa using row) hx leg
      have windowLength := clearRecord_windowLength p ((s.elapse dt).modInbox p fun b => { b with replies := rest })
      rw [modInbox_measure, elapse_windowLength] at windowLength
      intro sample w put add
      split
      case isTrue h =>
        rw [taken, used, addSample_of_nonneg (by exact hx) h, windowLength, newest_append_singleton,
          putEntry_modPath, putEntry_modInbox, countMeasure_clearRecord]
        rfl
      case isFalse h =>
        rw [taken, used, addSample_of_neg (by exact hx) (Int.not_le.mp h), windowLength, newest_append_singleton,
          countMeasure_countMeasure, putEntry_modPath, putEntry_modInbox, countMeasure_clearRecord]
        rfl

end Sys2Proof.DelayAndOffset
end
